-- ==== Sys2Proof/Config.lean ====
section
/-! DEFINITION. Config.lean: the free values, which the data book leaves open. None has a body: no proof can see what they are. -/

namespace Sys2Proof

/-- The free choice drawn as the `n`-th: the order of events at one moment that the spec leaves open
(00 0.3, R71, R162, R165, R176; log 3, 14, 15, 16). -/
opaque Config.freeChoice : Nat → Nat

/-- Ticks that the checks of CHECKING take, before its limit tVAL is applied (10.1; log 27). -/
opaque Config.checkingTime : Nat → Nat

/-- Ticks from the taking of a query to the end of its reply of so many characters, before the limits of
R195 are applied (log 28). -/
opaque Config.replyTime : Nat → Nat

end Sys2Proof
end

