-- ==== Sys2Proof/Word.lean ====
section
/-! DEFINITION. Word.lean: bytes, tables of a fixed number of like things, sets of small numbers as bits, and the plain data that commands carry. -/

namespace Sys2Proof

/-- One character of a record, an image or a diagnostic reply. -/
abbrev Byte := BitVec 8

/-- A 16-bit value: a diagnostic counter (00 0.5), a CRC, a group set. -/
abbrev Half := BitVec 16

/-- A fixed number of like things: groups, detectors, channels, peers. -/
abbrev Table (α : Type) (n : Nat) := Vector α n

/-- The table whose entry `i` is `f i`. -/
def Table.tab {α : Type} {n : Nat} (f : Fin n → α) : Table α n :=
  ⟨⟨List.ofFn f⟩, by simp⟩

/-- Entry `i` of a table. -/
def Table.nth {α : Type} {n : Nat} (t : Table α n) (i : Fin n) : α := t.get i

/-- The table with entry `i` replaced. -/
def Table.put {α : Type} {n : Nat} (t : Table α n) (i : Fin n) (v : α) : Table α n :=
  t.set i.val v i.isLt

/-- The table with entry `i` changed by `f`. -/
def Table.upd {α : Type} {n : Nat} (t : Table α n) (i : Fin n) (f : α → α) : Table α n :=
  t.put i (f (t.nth i))

/-- Some index below `n` satisfies `p`. -/
def anyFin {n : Nat} (p : Fin n → Bool) : Bool := (List.finRange n).any p

/-- Every index below `n` satisfies `p`. -/
def allFin {n : Nat} (p : Fin n → Bool) : Bool := (List.finRange n).all p

/-- The lowest index that satisfies `p`. -/
def firstFin {n : Nat} (p : Fin n → Bool) : Option (Fin n) := (List.finRange n).find? p

/-- How many indexes satisfy `p`. -/
def countFin {n : Nat} (p : Fin n → Bool) : Nat := (List.finRange n).countP p

/-- The set of the indexes that satisfy `p`, lowest member in the lowest bit (R188, R196). -/
def bitsOf {n : Nat} (p : Fin n → Bool) : BitVec n :=
  (BitVec.ofBoolListLE (List.ofFn p)).cast (by simp)

/-- Index `i` is a member of the set `s`. -/
def BitSet.has {n : Nat} (s : BitVec n) (i : Fin n) : Bool := s.getLsbD i.val

/-- What happens at the two ways in that hold start-up reset, the supply and the RESET line (R170, R194). -/
inductive ResetCause where
  | powerOn
  | supplyFall                   -- the supply falls below VRST
  | resetLine (held : Nat)       -- RESET low at its pin and held so for that many ticks of 16 µs
  | supplyReached                -- the supply reaches its operating level: it holds start-up reset no longer
  | resetLineHigh (held : Nat)   -- RESET high at its pin and held so for that many ticks of 16 µs
  deriving DecidableEq, Repr

/-- What is on the corridor line at the expiry of the frame timer (R6): the age in bit times of the dominant run
received then, none on a recessive line; and whether a mark that the device drives now reaches the line, which then
reads dominant (R12). -/
structure ExpiryLine where
  run : Option Nat
  reaches : Bool
  deriving DecidableEq, Repr

/-- Which of the two pattern lines (R193). -/
inductive PatternLine where
  | a
  | b
  deriving DecidableEq, Repr

/-- The level that the transmitter reads back at the middle of a bit it sends (R12). -/
inductive Readback where
  | dominant (ended : Option Nat)   -- none while the dominant run read is under way, its whole length once
                                    -- it has ended
  | recessive
  deriving DecidableEq, Repr

/-- A recessive-to-dominant transition that the waiting corridor receiver takes as a candidate start edge (R2):
the bit times from the slot's beginning to it, and the ten levels sampled at the middles of the bits that follow
it, the start bit in bit 0 and the stop bit in bit 9, recessive being 1. -/
structure RxEdge where
  pos : Nat
  levels : BitVec 10
  deriving DecidableEq, Repr

end Sys2Proof
end

