-- ==== Sys2Proof/Machine/Types.lean ====
section
/-! DEFINITION. Machine/Types.lean: the names and records of the blocks. The order of an enumeration's constructors is the order in which its chapter lists the values, which gives its code in a reply (R196). -/

namespace Sys2Proof.Machine

abbrev GroupId := Fin 16
abbrev StageId := Fin 12
abbrev LocalId := Fin 24
abbrev RemoteId := Fin 16
abbrev RouteId := Fin 8
abbrev StationId := Fin 16
abbrev ChanId := Fin 56
abbrev SignId := Fin 8
/-- Patterns 0 to 3; 1 to 3 are coordinated. -/
abbrev PatternId := Fin 4
/-- A set of groups, bit g − 1 for Gg (R188). -/
abbrev GroupSet := BitVec 16

/-! ### Plan (R186 to R188) -/

/-- Group kinds (R59). -/
inductive Kind where
  | vehicle | walk | unused
  deriving DecidableEq, Repr

/-- Flash aspects (R60). -/
inductive FlashAspect where
  | amber | red | dark
  deriving DecidableEq, Repr

/-- The plan part of a group record (R60); times in 0.1 s, 0 where none is held. -/
structure GroupPlan where
  kind : Kind
  aspect : FlashAspect
  tPRE : Nat
  tMIN : Nat
  tMAX : Nat
  tGAP : Nat
  tCLR : Nat
  recallFlag : Bool
  deriving DecidableEq, Repr

/-- Claim priorities (R129). -/
inductive Priority where
  | emergency | transit
  deriving DecidableEq, Repr

/-- Detector modes, with the route held for CLAIM and CHECKOUT alone and the priority for CLAIM alone (R109,
R186). -/
inductive DetMode where
  | presence | pulse | button
  | claim (route : RouteId) (priority : Priority)
  | checkout (route : RouteId)
  deriving DecidableEq, Repr

/-- A defined local detector (R109): tDF in units of 10 ms, tMP in minutes, tMSL in hours. -/
structure LocalDef where
  mode : DetMode
  tDF : Nat
  locking : Bool
  calls : GroupSet
  extends_ : GroupSet
  tMP : Nat
  tMSL : Nat
  deriving DecidableEq, Repr

/-- A defined remote detector (R123). -/
structure RemoteDef where
  station : StationId
  input : LocalId
  calls : GroupSet
  extends_ : GroupSet
  deriving DecidableEq, Repr

/-- The own points of a coordinated pattern (R40), in local positions. -/
structure PatternDef where
  ofs : Nat
  pREL : Nat
  pFO : Table Nat 12
  deriving DecidableEq, Repr

/-- The local route section (R129). -/
structure RouteDef where
  stage : Option StageId
  checkout : Option LocalId
  deriving DecidableEq, Repr

/-- Sources of a sign channel (R152). -/
inductive SignSource where
  | none
  | groupGreen (g : GroupId)
  | groupNotRed (g : GroupId)
  | callWaiting (g : GroupId)
  | claimServing (n : RouteId)
  | claimServingAny
  | flashing
  deriving DecidableEq, Repr

/-- A loaded plan, as written into the blocks (R191). -/
structure Plan where
  station : StationId
  fingerprint : Half
  tSF : Nat
  tAR : Nat
  /-- C of patterns 1 to 3. -/
  cycleLength : Table Nat 3
  /-- dist(n, k) in seconds, absent where the route does not pass the station. -/
  dist : Table (Table (Option Nat) 16) 8
  lead : Table Nat 8
  lifeEmergency : Nat
  lifeTransit : Nat
  holdEmergency : Nat
  holdTransit : Nat
  groups : Table GroupPlan 16
  conflicts : Table GroupSet 16
  /-- tIG(a→b) in 0.1 s. -/
  clearance : Table (Table (Option Nat) 16) 16
  stages : Table GroupSet 12
  sequence : List StageId
  local_ : Table (Option LocalDef) 24
  remote : Table (Option RemoteDef) 16
  patterns : Table PatternDef 3
  routes : Table RouteDef 8
  signs : Table SignSource 8
  deriving DecidableEq, Repr

/-- The bodies of the ten known sections of a plan image (R185). -/
structure Image where
  station : List Byte
  corridor : List Byte
  groups : List Byte
  conflicts : List Byte
  stages : List Byte
  sequence : List Byte
  detectors : List Byte
  patterns : List Byte
  routes : List Byte
  signs : List Byte
  deriving DecidableEq, Repr

/-! ### Pins and filters -/

/-- An input filter (R154, R193, R194): the raw level, how long it has held in ticks (as far as the filter
time), and the filtered level, none until one is taken. -/
structure Filter where
  raw : Bool
  time : Nat
  level : Option Bool
  deriving DecidableEq, Repr

/-- The six panel inputs (R193). -/
structure Panel where
  flash : Filter
  manual : Filter
  advance : Filter
  faultReset : Filter
  patternA : Filter
  patternB : Filter
  deriving DecidableEq, Repr

/-! ### Station mode controller and plan read -/

/-- Station modes (R169). -/
inductive Mode where
  | dark | loading | check | startFlash | allRed | running | panelFlash | faultFlash
  deriving DecidableEq, Repr

/-- The force input of the groups (4.10). -/
inductive Force where
  | none | flashing | dark
  deriving DecidableEq, Repr

/-- Fault reasons (R177). -/
inductive Reason where
  | conflict | redOut | selfCheck | plan
  deriving DecidableEq, Repr

/-- The fault reason set (R177). -/
structure Reasons where
  conflict : Bool
  redOut : Bool
  selfCheck : Bool
  plan : Bool
  deriving DecidableEq, Repr

/-- The station mode controller's own state (R182). -/
structure Ctrl where
  mode : Mode
  timer : Option Nat
  wait : Bool
  reasons : Reasons
  firstFault : Option Reason
  /-- Plan fault code of R190, 0 for absent. -/
  planFault : Nat
  deriving DecidableEq, Repr

/-- Read states (Plan Image). -/
inductive ReadState where
  | notStarted | reading | checking | loaded | failed
  deriving DecidableEq, Repr

/-- The five modes of a local detector as the plan image codes them (R188). -/
inductive DetKind where
  | presence | pulse | button | claim | checkout
  deriving DecidableEq, Repr

/-- What the device does on the plan memory port, item by item (R183). -/
inductive PortItem where
  | start
  | write (b : Byte)
  | repeatedStart
  | read (acknowledge : Bool)
  | stop
  deriving DecidableEq, Repr

/-- Why a transfer from the plan memory fails (R183). -/
inductive TransferFault where
  /-- The memory does not acknowledge the device address, with either direction. -/
  | noAckAddress
  /-- The memory does not acknowledge a byte of the block start. -/
  | noAckBlockStart
  /-- The data line is low at the moment the device would make a start condition, repeated or not. -/
  | dataLow
  deriving DecidableEq, Repr

/-- What comes of a transfer from the plan memory (R183). -/
inductive TransferEnd where
  | done (bytes : List Byte)
  | failed (cause : TransferFault)
  deriving DecidableEq, Repr

/-- The plan read (R192). -/
structure PlanRead where
  readState : ReadState
  buffer : List Byte
  nextBlock : Nat
  retry : Nat
  /-- Ticks since the start of the present or the failed attempt. -/
  attempt : Option Nat
  /-- The transfer under way; empty while both lines are released. -/
  port : List PortItem
  /-- Ticks since CHECKING began. -/
  checkAge : Option Nat
  deriving DecidableEq, Repr

/-! ### Corridor line, records, peers -/

/-- An own claim as a record carries it (R26). -/
structure ClaimField where
  serial : BitVec 4
  route : BitVec 3
  emergency : Bool
  deriving DecidableEq, Repr

/-- A service report as a record carries it (R26). -/
structure ReportField where
  origin : BitVec 4
  serial : BitVec 4
  state : Byte
  deriving DecidableEq, Repr

/-- A station record, field by field (R22, R26). -/
structure Record where
  station : BitVec 4
  format : BitVec 4
  fingerprint : Half
  mode : BitVec 3
  checkPassed : Bool
  step : BitVec 2
  clock : Bool
  manual : Bool
  active : BitVec 2
  requested : BitVec 2
  current : BitVec 4
  target : BitVec 4
  position : Half
  occupancy : BitVec 24
  faults : BitVec 24
  claims : List ClaimField
  reports : List ReportField
  deriving DecidableEq, Repr

/-- Line states (R18). -/
inductive LineState where
  | off | listen | active | silentFault | stuck
  deriving DecidableEq, Repr

/-- SILENT_FAULT kinds (R13). -/
inductive SilentKind where
  | none | timed | permanent
  deriving DecidableEq, Repr

/-- The boundary-pending state (R6, R7): bit times since the expiry, and whether a run, the own drive
included, was under way at it. -/
structure Pending where
  age : Nat
  run : Bool
  deriving DecidableEq, Repr

/-- How a transmission ended (R11, R12); `judging`: a mismatch has stopped it, and the dominant run that caused
it is still under way. -/
inductive TxEnd where
  | clean | collision | slip | judging
  deriving DecidableEq, Repr

/-- Slot outcomes (R17). -/
inductive Outcome where
  | good (r : Record)
  | bad
  | silent
  | own
  deriving DecidableEq, Repr

/-- The line interface (R20). -/
structure Line where
  st : LineState
  /-- Bit times since the frame start, none while the timer is stopped (R5). -/
  frameTimer : Option Nat
  pending : Option Pending
  cycleMarkReq : Bool
  /-- Bit times left of the mark the device drives. -/
  markDrive : Option Nat
  /-- Bit times of the record sent so far. -/
  sending : Option Nat
  txEnd : Option TxEnd
  snapshot : List Byte
  collisionRun : Nat
  budget : Nat
  sfKind : SilentKind
  sfHold : Nat
  listenCount : Nat
  outcomes : Table (Option Outcome) 16
  /-- Age of the dominant run known to be under way. -/
  run : Option Nat
  /-- Bit times the line is known to have been recessive without a break. -/
  recessive : Nat
  collisions : Half
  slips : Half
  malformed : Half
  deriving DecidableEq, Repr

/-- Presence states (R28). -/
inductive Presence where
  | absent | heard | present | lost | foreign | unfit | self
  deriving DecidableEq, Repr

/-- A peer table entry (R28). -/
structure Peer where
  presence : Presence
  run : Nat
  miss : Nat
  record : Option Record
  fresh : Bool
  badCount : Nat
  deriving DecidableEq, Repr

/-- The staged fields that are latched and not a view of present state (R125). -/
structure Latched where
  occupancy : BitVec 24
  faults : BitVec 24
  deriving DecidableEq, Repr

/-- Classes of a dominant run by its whole length (R3). -/
inductive RunClass where
  | short | frameMark | malformed | cycleMark | stuck
  deriving DecidableEq, Repr

/-! ### Cycle clock and pattern unit -/

/-- The cycle clock and pattern unit (R57). -/
structure Cycle where
  set : Bool
  position : Nat
  active : PatternId
  requested : PatternId
  pair : PatternId
  pairTime : Nat
  startHold : Nat
  unsetWait : Nat
  divCandidate : Option PatternId
  divCount : Nat
  lateMarks : Half
  deriving DecidableEq, Repr

/-- Cycle points (R48). -/
inductive CyclePoint where
  | zero
  | release
  | forceOff (s : StageId)
  deriving DecidableEq, Repr

/-- The notices of one boundary (R49). -/
structure Notices where
  /-- The old active pattern, where it has changed. -/
  patternChanged : Option PatternId
  clockUnset : Bool
  clockSet : Bool
  disturbed : Bool
  point : Option CyclePoint
  deriving DecidableEq, Repr

/-! ### Groups and sequencer -/

/-- Group states (R60). -/
inductive GState where
  | red | prepare | green | clearing | flashing | dark
  deriving DecidableEq, Repr

/-- Held requests (R60). -/
inductive Held where
  | none | open | close
  deriving DecidableEq, Repr

/-- The runtime part of a group record (R60); times in ticks. -/
structure Group where
  state : GState
  held : Held
  time : Nat
  minDone : Bool
  gapped : Bool
  gap : Nat
  maxRunning : Bool
  maxLeft : Nat
  maxDone : Bool
  deriving DecidableEq, Repr

/-- A change record (R84). -/
structure Change where
  fromStage : Option StageId
  toStage : StageId
  closing : GroupSet
  opening : GroupSet
  committed : Bool
  replacement : Option StageId
  deriving DecidableEq, Repr

/-- Sequencer states (R84). -/
inductive SeqState where
  | idle
  | dwell (s : StageId)
  | change (c : Change)
  deriving DecidableEq, Repr

/-- Step states (R106). -/
inductive StepState where
  | isolated | seeking | inStep
  deriving DecidableEq, Repr

/-- The stage sequencer (R84). -/
structure Seq where
  st : SeqState
  release : Bool
  forceOff : Bool
  step : StepState
  service : Option StageId
  deriving DecidableEq, Repr

/-! ### Detectors -/

/-- Fault states of a local detector (R119, R120). -/
inductive DetFault where
  | normal | stuck | silent
  deriving DecidableEq, Repr

/-- The runtime part of a local detector (R128); times in ticks. -/
structure Det where
  raw : Bool
  filt : Nat
  level : Bool
  initial : Bool
  pulse : Option Nat
  fault : DetFault
  presence : Option Nat
  silence : Option Nat
  active : Option Nat
  count : Half
  capture : Half
  deriving DecidableEq, Repr

/-- The value of a remote detector (R123); `unused` also until its first value is taken. -/
inductive Remote where
  | unused
  | normal (occupied : Bool)
  | lost
  deriving DecidableEq, Repr

/-! ### Claims -/

/-- Claim states (R131). -/
inductive ClaimState where
  | waiting | ready | serving | cleared | expired
  deriving DecidableEq, Repr

/-- A claim table entry (R131); times in ticks. -/
structure ClaimEntry where
  origin : StationId
  serial : Fin 16
  route : RouteId
  priority : Priority
  stage : StageId
  remaining : Nat
  arrived : Bool
  life : Nat
  hold : Option Nat
  state : ClaimState
  clearedOrder : Option Nat
  miss : Nat
  deriving DecidableEq, Repr

/-- An entry of the own-claims list (R130). -/
structure OwnClaim where
  serial : Fin 16
  route : RouteId
  priority : Priority
  life : Nat
  clearedBy : BitVec 16
  deriving DecidableEq, Repr

/-- The claim unit (R150). -/
structure Claims where
  table : List ClaimEntry
  own : List OwnClaim
  nextSerial : Fin 16
  refused : Half
  overflow : Half
  /-- The place given to entries cleared at the present moment (R131; log 20). -/
  clearPlace : Option Nat
  deriving DecidableEq, Repr

/-! ### Lamps and monitor -/

/-- Channel commands (R62). -/
inductive Command where
  | on | off | flash
  deriving DecidableEq, Repr

/-- One switch channel with its two channel checks (R151, R154, R155, R160, R161); times in ticks. -/
structure Chan where
  command : Command
  output : Bool
  sense : Filter
  /-- Settle timing; none while the channel is judged. -/
  settle : Option Nat
  unTime : Nat
  loTime : Nat
  unLive : Bool
  unSticky : Bool
  loLive : Bool
  loSticky : Bool
  deriving DecidableEq, Repr

/-- Cause record of the conflict latch (R162). -/
inductive ConflictCause where
  | conflict (a b : GroupId)
  | greenInFlash (g : GroupId)
  deriving DecidableEq, Repr

/-- Self-check states (R165). -/
inductive SelfCheck where
  | notRun | running | passed | failed
  deriving DecidableEq, Repr

/-- The lamp switching and monitor block (R168). -/
structure Lamps where
  channels : Table Chan 56
  phase : Bool
  flashCount : Nat
  /-- Persistence timing of the pair (a, b), kept at a < b (R156). -/
  pairs : Table (Table Nat 16) 16
  greens : Table Nat 16
  reds : Table Nat 16
  conflict : Option ConflictCause
  redOut : Option GroupId
  selfCheck : SelfCheck
  selfTime : Nat
  selfJudging : Bool
  firstFailing : Option ChanId
  checkPassed : Bool
  deriving DecidableEq, Repr

/-! ### Diagnostic line -/

/-- What the diagnostic receiver makes of a character (R195): it drops one whose start bit reads high as noise and
discards one whose stop bit reads low; `char` carries the value of any other. -/
inductive RxChar where
  | noise
  | framingError
  | char (value : Byte)
  deriving DecidableEq, Repr

/-- A reply being sent (R195, R196): its characters, and the ticks since the query was taken. -/
structure Reply where
  chars : List Byte
  elapsed : Nat
  deriving DecidableEq, Repr

end Sys2Proof.Machine
end

