-- ==== Sys2Proof/Syntax.lean ====
section
/-! DEFINITION. Syntax.lean: the commands, one constructor for each row of the table of operations and events. Groups, detectors, channels and stations are counted from 0 here: group 0 is G1. -/

namespace Sys2Proof

/-- The commands of the CS-16. A constructor's docstring names what its operands carry. A sample of an input pin
is `pin` (its level now, true = high) and `held` (the ticks of 16 µs for which it has held without a break);
that of a current-sense return is `level` (true = above the on threshold) and `held`. The ten levels that the
diagnostic receiver samples of a character, timed from the falling edge of its start bit, are `levels`: the start bit
in bit 0, the data bits, the stop bit in bit 9, high being 1 (R195, R198). Where a row's command is named without them
they are those of the character it is named for, and of a line held low for a framing error. -/
inductive Instr where
  /-- `cause`: what happens at the supply or the RESET line, which together hold start-up reset (log 45). -/
  | startUpReset (cause : ResetCause)
  | resetRelease
  /-- `line`: what is on the line then. -/
  | frameTimerExpiry (line : ExpiryLine)
  | markDriveEnd
  /-- `len`: the run's whole length in bit times; `startEdge`: a start edge had been accepted in the slot
  in progress, the run's own leading edge not counted. -/
  | dominantRunEnd (len : Nat) (startEdge : Bool)
  | joinWindowClose
  /-- `run`: the age in bit times of the dominant run under way now. -/
  | lineStuck (run : Nat)
  | frameSlip
  | recordTransmission
  | recordTransmissionEnd
  | collision (readback : Readback)
  | ownSlotEnd
  | silentFaultHoldEnd
  | listenEnd
  | stuckEnd
  | slotSilent (slot : Fin 16)
  /-- Every candidate start edge that the receiver took in the slot, in order: the first (`pos` and `levels` as
  `RxEdge` has them), and the `further` ones. -/
  | slotReception (slot : Fin 16) (pos : Nat) (levels : BitVec 10) (further : List RxEdge)
  /-- `chars`: the characters of the good record that arrives. -/
  | peerClassification (peer : Fin 16) (chars : List Byte)
  | peerLost (peer : Fin 16)
  | peerAbsent (peer : Fin 16)
  | startHoldEnd
  | unsetWaitEnd
  | divergenceAdoption
  | patternLineChange (line : PatternLine) (pin : Bool) (held : Nat)
  | requestedPatternChange
  | openGrant (g : Fin 16)
  | prepareEnd (g : Fin 16)
  | minGreenEnd (g : Fin 16)
  | gapOut (g : Fin 16)
  | maxDone (g : Fin 16)
  | clearingEnd (g : Fin 16)
  | manualChange (pin : Bool) (held : Nat)
  | advancePress (pin : Bool) (held : Nat)
  | detectorInputChange (d : Fin 24) (pin : Bool)
  | initialLevel (d : Fin 24)
  | detectorRisingEdge (d : Fin 24)
  | detectorFallingEdge (d : Fin 24)
  | pulseOccupancyEnd (d : Fin 24)
  | faultStuck (d : Fin 24)
  | faultSilent (d : Fin 24)
  | withdrawalDetected (origin serial : Fin 16)
  | claimReady (origin serial : Fin 16)
  | claimArrived (origin serial : Fin 16)
  | holdEnd (origin serial : Fin 16)
  | claimLifetimeEnd (origin serial : Fin 16)
  | flashPhaseChange
  | senseChange (ch : Fin 56) (level : Bool) (held : Nat)
  | settleEnd (ch : Fin 56)
  | conflict (a b : Fin 16)
  | greenInFlash (g : Fin 16)
  | redOut (g : Fin 16)
  | uncommandedOn (ch : Fin 56)
  | lampOut (ch : Fin 56)
  | selfCheckPass
  | startFlashEnd
  | allRedEnd
  | flashRequestChange (pin : Bool) (held : Nat)
  | panelFaultReset (pin : Bool) (held : Nat)
  /-- `levels`: those of the data line, true being high, that the device looks at in the transfer, in order. -/
  | planTransfer (levels : List Bool)
  | transferRetry
  | planValidation
  | stationQuery (levels : BitVec 10 := 678)
  | groupsQuery (levels : BitVec 10 := 654)
  | detectorsQuery (levels : BitVec 10 := 648)
  | peersQuery (levels : BitVec 10 := 672)
  | claimsQuery (levels : BitVec 10 := 646)
  | faultsQuery (levels : BitVec 10 := 652)
  | countsQuery (levels : BitVec 10 := 668)
  | errorReply (levels : BitVec 10)
  | diagFramingError (levels : BitVec 10 := 0)
  | diagCharacterIgnored (levels : BitVec 10)
  | diagReplyEnd
  /-- `levels`: those of the data line that the device looks at, up to the one on which the transfer fails. -/
  | transferFailure (levels : List Bool)
  | selfCheckSettleEnd
  deriving DecidableEq, Repr

end Sys2Proof
end

