-- ==== Sys2Proof/Machine/State.lean ====
section
/-! DEFINITION. Machine/State.lean: the state of the CS-16, block by block, and its value after start-up reset. -/

namespace Sys2Proof.Machine

/-- No command stops the device with a fault of the model: faults of the street are effects on the state
(R162, R172, R177), so this type has no constructor. -/
inductive Fault where
  deriving DecidableEq, Repr

/-- Why a command has no meaning. -/
inductive Refusal where
  /-- Raised by an arm of the dispatch whose command has no meaning yet; safe, since nothing is claimed of
  the state after it. -/
  | notModelled (mnemonic : String)
  deriving DecidableEq, Repr

/-- Everything the data book gives the device, as plain data. -/
structure State where
  pending : List Instr
  freeCount : Nat
  supplyOk : Bool
  resetPin : Filter
  panel : Panel
  planRead : PlanRead
  plan : Option Plan
  ctrl : Ctrl
  line : Line
  peers : Table Peer 16
  latched : Latched
  act : Bool
  cycle : Cycle
  groups : Table Group 16
  seq : Seq
  dets : Table Det 24
  remotes : Table Remote 16
  callers : Table (BitVec 24) 16
  claims : Claims
  lamps : Lamps
  diag : Option Reply
  deriving DecidableEq, Repr

/-- A panel or RESET filter that has taken no level, its pin released (R193; log 23). -/
def Filter.reset : Filter := { raw := false, time := 0, level := none }

/-- R193, R182: no panel level taken (log 23 for the pins). -/
def Panel.reset : Panel :=
  { flash := .reset, manual := .reset, advance := .reset, faultReset := .reset,
    patternA := .reset, patternB := .reset }

/-- R192. -/
def PlanRead.reset : PlanRead :=
  { readState := .notStarted, buffer := [], nextBlock := 0, retry := 0, attempt := none, port := [],
    checkAge := none }

/-- R182. -/
def Ctrl.reset : Ctrl :=
  { mode := .dark, timer := none, wait := false,
    reasons := { conflict := false, redOut := false, selfCheck := false, plan := false },
    firstFault := none, planFault := 0 }

/-- R20 (log 23 for what is known of the line). -/
def Line.reset : Line :=
  { st := .off, frameTimer := none, pending := none, cycleMarkReq := false, markDrive := none,
    sending := none, txEnd := none, snapshot := [], collisionRun := 0, budget := 1, sfKind := .none,
    sfHold := 0, listenCount := 0, outcomes := .tab fun _ => none, run := none, recessive := 0,
    collisions := 0, slips := 0, malformed := 0 }

/-- R39. -/
def Peer.reset : Peer :=
  { presence := .absent, run := 0, miss := 0, record := none, fresh := false, badCount := 0 }

/-- R57 (log 23 for the requested pattern and the pair before the release). -/
def Cycle.reset : Cycle :=
  { set := false, position := 0, active := 0, requested := 0, pair := 0, pairTime := 0, startHold := 0,
    unsetWait := 0, divCandidate := none, divCount := 0, lateMarks := 0 }

/-- R82. -/
def Group.reset : Group :=
  { state := .dark, held := .none, time := 0, minDone := false, gapped := false, gap := 0,
    maxRunning := false, maxLeft := 0, maxDone := false }

/-- R108. -/
def Seq.reset : Seq :=
  { st := .idle, release := false, forceOff := false, step := .isolated, service := none }

/-- R128 (log 23 for the pin). -/
def Det.reset : Det :=
  { raw := false, filt := 0, level := false, initial := false, pulse := none, fault := .normal,
    presence := none, silence := none, active := none, count := 0, capture := 0 }

/-- R150. -/
def Claims.reset : Claims :=
  { table := [], own := [], nextSerial := 0, refused := 0, overflow := 0, clearPlace := none }

/-- R168 (log 23 for the pin). -/
def Chan.reset : Chan :=
  { command := .off, output := false, sense := { raw := false, time := 0, level := some false },
    settle := none, unTime := 0, loTime := 0, unLive := false, unSticky := false, loLive := false,
    loSticky := false }

/-- R168. -/
def Lamps.reset : Lamps :=
  { channels := .tab fun _ => .reset, phase := true, flashCount := 0,
    pairs := .tab fun _ => .tab fun _ => 0, greens := .tab fun _ => 0, reds := .tab fun _ => 0,
    conflict := none, redOut := none, selfCheck := .notRun, selfTime := 0, selfJudging := false,
    firstFailing := none, checkPassed := false }

/-- The device held in start-up reset (R170, R171): every block at the values its chapter gives. The supply has just
reached its level, and the RESET filter has taken none yet (R194; log 23). -/
def State.reset : State :=
  { pending := [], freeCount := 0, supplyOk := true, resetPin := .reset,
    panel := .reset, planRead := .reset, plan := none, ctrl := .reset, line := .reset,
    peers := .tab fun _ => .reset, latched := { occupancy := 0, faults := 0 }, act := false,
    cycle := .reset, groups := .tab fun _ => .reset, seq := .reset, dets := .tab fun _ => .reset,
    remotes := .tab fun _ => .unused, callers := .tab fun _ => 0, claims := .reset, lamps := .reset,
    diag := none }

end Sys2Proof.Machine
end

