-- ==== Sys2Proof/Machine/Times.lean ====
section
/-! DEFINITION. Machine/Times.lean: the fixed times and counts of the data book. Line times are in bit times; all others in ticks of 16 µs, the nominal bit time (log 6). -/

namespace Sys2Proof.Machine

/-- Ticks in 10 ms. -/
def tenMs : Nat := 625
/-- Ticks in 0.1 s, the step of the group, claim and mode times (R61). -/
def tenth : Nat := 6250
/-- Ticks in 1 s. -/
def second : Nat := 62500

/-! Corridor line (1.3), in bit times. -/
def tFRM : Nat := 6250
def tMS : Nat := 250
def tSL : Nat := 360
def tLI : Nat := 40
def tSS : Nat := 120
def tICG : Nat := 20
def tFM : Nat := 32
def tCM : Nat := 96
def tJW : Nat := 16
def tSTK : Nat := 200
/-- Length from which a run is a mark (R3). -/
def markLength : Nat := 24
def listenPeriod : Nat := 3
def collisionLimit : Nat := 3
def tSFH : Nat := 600

/-! Peer table (R31 to R36). -/
def admitRun : Nat := 3
def missLost : Nat := 10
def missAbsent : Nat := 50

/-! Cycle unit (R40). -/
def tSH : Nat := 50
def divergenceConfirm : Nat := 3
def tPS : Nat := 20 * tenth

/-! Panel and RESET (11.1); 1 ms is 62.5 ticks, taken as 63 (log 6). -/
def tPF : Nat := 5 * tenMs
def tRF : Nat := 63

/-! Detectors (6.1). -/
def tPO : Nat := 5 * tenth
def minute : Nat := 60 * second
def hour : Nat := 3600 * second

/-! Lamps (8.3). -/
def tSNF : Nat := tenMs
def tSET : Nat := 5 * tenMs
def tCF : Nat := 2 * tenth
def tGF : Nat := 2 * tenth
def tRO : Nat := 5 * tenth
def tUO : Nat := 5 * tenth
def tLO : Nat := 10 * tenth
def tCK : Nat := 10 * tenth
def flashHalf : Nat := 5

/-! Plan read (10.1); 5 ms is 312.5 ticks, taken as 313 (log 6). -/
def blockLength : Nat := 64
def maxRetries : Nat := 3
def tRP : Nat := 313
def tVAL : Nat := 2 * tenMs

/-! Diagnostic line (11.3): 2 ms. -/
def tDR : Nat := 125

/-- The saturation of a time in state and of a capture value (4.3, R126): 6 553.5 s in 0.1 s. -/
def saturation : Nat := 65535

end Sys2Proof.Machine
end

