-- ==== Sys2Proof/Machine/Ops.lean ====
section
/-! DEFINITION. Machine/Ops.lean: the named operations over pins, counters and the plan that every block uses. -/

namespace Sys2Proof.Machine

/-! ### Filters (R110, R154, R193, R194) -/

/-- The level at a pin that is active, or asserted, while low (R198): true is high. -/
def activeLow (active : Bool) : Bool := !active

/-- The raw input is seen at level `l`, held without a break for `held` ticks; the filtered level follows
once that is the filter time `limit`. A shorter excursion leaves the filtered level as it was. -/
def Filter.sample (limit : Nat) (f : Filter) (l : Bool) (held : Nat) : Filter :=
  { raw := l, time := min held limit, level := if limit ≤ held then some l else f.level }

/-- A sample at a filter that runs while `runs` holds: a filter that stands follows its pin alone (R193). -/
def Filter.take (runs : Bool) (limit : Nat) (f : Filter) (l : Bool) (held : Nat) : Filter :=
  if runs then f.sample limit l held else { f with raw := l }

/-- One tick of filter timing. -/
def Filter.tick (limit : Nat) (f : Filter) : Filter := { f with time := min (f.time + 1) limit }

/-- The raw level has held for the filter time and the filtered level does not show it yet. -/
def Filter.due (limit : Nat) (f : Filter) : Bool := decide (limit ≤ f.time) && !(f.level == some f.raw)

/-- The filtered level is asserted (for a sense: on). -/
def Filter.asserted (f : Filter) : Bool := f.level == some true

/-- From filter `f` to `f'` the filtered level changes from released to asserted: a rising edge. Taking an
initial level is not an edge (R193). -/
def Filter.rises (f f' : Filter) : Bool := f.level == some false && f'.level == some true

/-- A filter that has taken no level takes the raw one (R193, at the release of start-up reset). -/
def Filter.takeInitial (f : Filter) : Filter :=
  match f.level with
  | none => { f with level := some f.raw }
  | some _ => f

/-- The flash request is the FLASH switch after its filter (R175). -/
def State.flashRequest (s : State) : Bool := s.panel.flash.asserted

/-- The manual flag is the MANUAL line after its filter (R102). -/
def State.manualFlag (s : State) : Bool := s.panel.manual.asserted

/-- The pair value of the pattern lines: PATTERN A plus twice PATTERN B (R50). -/
def Panel.pairValue (p : Panel) : PatternId :=
  match p.patternB.asserted, p.patternA.asserted with
  | false, false => 0
  | false, true => 1
  | true, false => 2
  | true, true => 3

/-! ### Item updates -/

/-- Group `g` changed by `f`. -/
def State.updGroup (s : State) (g : GroupId) (f : Group → Group) : State :=
  { s with groups := s.groups.upd g f }

/-- Detector `d` changed by `f`. -/
def State.updDet (s : State) (d : LocalId) (f : Det → Det) : State :=
  { s with dets := s.dets.upd d f }

/-- Channel `c` changed by `f`. -/
def State.updChan (s : State) (c : ChanId) (f : Chan → Chan) : State :=
  { s with lamps := { s.lamps with channels := s.lamps.channels.upd c f } }

/-- Peer entry `k` changed by `f`. -/
def State.updPeer (s : State) (k : StationId) (f : Peer → Peer) : State :=
  { s with peers := s.peers.upd k f }

/-! ### Free choices (log 3) -/

/-- A free choice among `n` (below `n` where `n` is above 0), and the state with the next choice fresh. -/
def State.draw (s : State) (n : Nat) : Nat × State :=
  (Config.freeChoice s.freeCount % n, { s with freeCount := s.freeCount + 1 })

/-! ### Reading the plan -/

/-- A group's plan part; the reset record where no plan is held (R79, R82). -/
def State.groupPlan (s : State) (g : GroupId) : GroupPlan :=
  match s.plan with
  | some p => p.groups.nth g
  | none => { kind := .unused, aspect := .amber, tPRE := 0, tMIN := 0, tMAX := 0, tGAP := 0, tCLR := 0, recallFlag := false }

/-- The group takes part in the intersection: its kind is not UNUSED (R59). -/
def State.used (s : State) (g : GroupId) : Bool := !((s.groupPlan g).kind == .unused)

/-- Two groups conflict (R63). -/
def State.conflicts (s : State) (a b : GroupId) : Bool :=
  match s.plan with
  | some p => BitSet.has (p.conflicts.nth a) b
  | none => false

/-- tIG(a→b) in 0.1 s, 0 where absent (R63). -/
def State.clearance (s : State) (a b : GroupId) : Nat :=
  match s.plan with
  | some p => ((p.clearance.nth a).nth b).getD 0
  | none => 0

/-- The group set of a stage (R83). -/
def State.stageGroups (s : State) (t : StageId) : GroupSet :=
  match s.plan with
  | some p => p.stages.nth t
  | none => 0

/-- The sequence list (R83). -/
def State.sequence (s : State) : List StageId :=
  match s.plan with
  | some p => p.sequence
  | none => []

/-- The main stage, the first entry of the sequence list (R83). -/
def State.mainStage (s : State) : Option StageId := s.sequence.head?

/-- The definition of a local detector, none when unused (R109). -/
def State.localDef (s : State) (d : LocalId) : Option LocalDef :=
  match s.plan with
  | some p => p.local_.nth d
  | none => none

/-- The definition of a remote detector, none when unused (R123). -/
def State.remoteDef (s : State) (r : RemoteId) : Option RemoteDef :=
  match s.plan with
  | some p => p.remote.nth r
  | none => none

/-- The coordinated pattern's place in the plan's tables: pattern 1 is place 0. -/
def coordinated (p : PatternId) : Option (Fin 3) :=
  if h : 0 < p.val then some ⟨p.val - 1, by omega⟩ else none

/-- C of a coordinated pattern, 0 for pattern 0 (R40). -/
def Plan.cOf (pl : Plan) (p : PatternId) : Nat :=
  match coordinated p with
  | some i => pl.cycleLength.nth i
  | none => 0

/-- The own points of a coordinated pattern (R40). -/
def Plan.patternOf (pl : Plan) (p : PatternId) : Option PatternDef :=
  (coordinated p).map fun i => pl.patterns.nth i

/-- LIFE of a priority in seconds (R129). -/
def Plan.lifeOf (pl : Plan) : Priority → Nat
  | .emergency => pl.lifeEmergency
  | .transit => pl.lifeTransit

/-- HOLD of a priority in seconds (R129). -/
def Plan.holdOf (pl : Plan) : Priority → Nat
  | .emergency => pl.holdEmergency
  | .transit => pl.holdTransit

/-- dist(n, k), none where the route does not pass the station (R129). -/
def Plan.distOf (pl : Plan) (n : RouteId) (k : StationId) : Option Nat := (pl.dist.nth n).nth k

/-! ### Peers -/

/-- What a reading block sees of station `k`: its last good record while it is PRESENT (R37). -/
def State.presentRecord (s : State) (k : StationId) : Option Record :=
  let e := s.peers.nth k
  match e.presence with
  | .present => e.record
  | .absent | .heard | .lost | .foreign | .unfit | .self => none

/-! ### Modes -/

/-- The force input each mode gives (R169). -/
def Mode.force : Mode → Force
  | .dark | .loading | .check => .dark
  | .startFlash | .panelFlash | .faultFlash => .flashing
  | .allRed | .running => .none

/-- The flash modes (R157, R152). -/
def Mode.isFlash : Mode → Bool
  | .startFlash | .panelFlash | .faultFlash => true
  | .dark | .loading | .check | .allRed | .running => false

/-- ALL_RED and RUNNING, where CONFLICT and RED_OUT are enabled (8.4). -/
def Mode.isStreet : Mode → Bool
  | .allRed | .running => true
  | .dark | .loading | .check | .startFlash | .panelFlash | .faultFlash => false

/-- The mode code of the record (R26); LOADING is 0 in a reply (R196), DARK is never sent. -/
def Mode.code : Mode → Nat
  | .dark | .loading => 0
  | .check => 1
  | .startFlash => 2
  | .allRed => 3
  | .running => 4
  | .panelFlash => 5
  | .faultFlash => 6

end Sys2Proof.Machine
end

