-- ==== Sys2Proof/Machine/Operands.lean ====
section
/-! DEFINITION. Machine/Operands.lean: what a command's operands mean: pin samples taken by their filters, sampled levels of characters and of the plan port's data line, run lengths by class, and the places of slots in the frame. -/

namespace Sys2Proof.Machine

/-! ### Pin samples (log 8). The panel and RESET filters run while the supply is at its operating level (R193). -/

/-- The FLASH switch is sampled (R193). -/
def State.sampleFlash (s : State) (level : Bool) (held : Nat) : State :=
  { s with panel := { s.panel with flash := s.panel.flash.take s.supplyOk tPF level held } }

/-- The MANUAL line is sampled (R193). -/
def State.sampleManual (s : State) (level : Bool) (held : Nat) : State :=
  { s with panel := { s.panel with manual := s.panel.manual.take s.supplyOk tPF level held } }

/-- The ADVANCE line is sampled (R193). -/
def State.sampleAdvance (s : State) (level : Bool) (held : Nat) : State :=
  { s with panel := { s.panel with advance := s.panel.advance.take s.supplyOk tPF level held } }

/-- The FAULT RESET line is sampled (R193). -/
def State.sampleFaultReset (s : State) (level : Bool) (held : Nat) : State :=
  { s with panel := { s.panel with faultReset := s.panel.faultReset.take s.supplyOk tPF level held } }

/-- A pattern line is sampled (R193). -/
def State.samplePattern (s : State) (line : PatternLine) (level : Bool) (held : Nat) : State :=
  { s with panel := match line with
      | .a => { s.panel with patternA := s.panel.patternA.take s.supplyOk tPF level held }
      | .b => { s.panel with patternB := s.panel.patternB.take s.supplyOk tPF level held } }

/-- A current-sense return is sampled (R154). -/
def State.sampleSense (s : State) (c : ChanId) (level : Bool) (held : Nat) : State :=
  s.updChan c fun ch => { ch with sense := ch.sense.sample tSNF level held }

/-- The RESET line is sampled (R194). -/
def State.sampleReset (s : State) (level : Bool) (held : Nat) : State :=
  { s with resetPin := s.resetPin.take s.supplyOk tRF level held }

/-! ### Characters as bits (R2, R195) -/

/-- The ten bits of a character in the order sent: start bit 0, eight data bits, least significant first, stop
bit 1. On the corridor line 0 is dominant (R2); on the diagnostic line 0 is low (R195). -/
def charBits (b : Byte) : List Bool := false :: (List.range 8).map (fun i => b.getLsbD i) ++ [true]

/-- The bits of a record sent back to back (R11). -/
def recordBits (l : List Byte) : List Bool := l.flatMap charBits

/-! ### Received characters (R2) -/

/-- The candidate start edge stands: the start bit reads dominant at its middle. An edge whose start bit reads
recessive there was noise and is dropped (R2). -/
def accepted (e : RxEdge) : Bool := !e.levels.getLsbD 0

/-- The eight data bits of the character, the least significant received first, dominant being 0 (R2). -/
def rxValue (e : RxEdge) : Byte := e.levels.extractLsb' 1 8

/-- The stop bit reads recessive at its middle; if not, the character has a framing error (R2). -/
def stopRecessive (e : RxEdge) : Bool := e.levels.getLsbD 9

/-! ### Characters on the diagnostic receive line (R195, R198) -/

/-- The ten levels of a character on the line, high being 1: the start bit low, the data bits, least significant
first, and the stop bit high. -/
def lineLevels (char : Byte) : BitVec 10 := 1#1 ++ char ++ 0#1

/-- The level of the receive pin, true being high, in bit `n` of a character, or at rest before it where `n` is none:
high at rest, so that the start bit begins with a falling edge. -/
def receivePin (char : Byte) (n : Option Nat) : Bool :=
  match n with
  | none => true
  | some i => if i < 10 then (lineLevels char).getLsbD i else true

/-- The receiver judges the levels it has sampled at the middles of a character's bits: the start bit, then the stop
bit; the value is that of the eight data bits, the least significant received first. -/
def rxCharacter (levels : BitVec 10) : RxChar :=
  if levels.getLsbD 0 then .noise
  else if levels.getLsbD 9 then .char (levels.extractLsb' 1 8)
  else .framingError

/-! ### The data line of the plan memory port (R183; log 26) -/

/-- The items of a transfer of `count` bytes from block start `start` (R183): the device address is 84, so
168 with write direction and 169 with read direction. -/
def transferItems (start count : Nat) : List PortItem :=
  [.start, .write 168, .write (BitVec.ofNat 8 (start / 256)), .write (BitVec.ofNat 8 start),
   .repeatedStart, .write 169] ++
  List.replicate (count - 1) (.read true) ++ [.read false, .stop]

/-- The byte that eight levels of the data line spell, high being 1, the most significant bit first. A level that is
not given is that of the line pulled up, high. -/
def portByte (levels : List Bool) : Byte := bitsOf fun i : Fin 8 => levels.getD (7 - i.val) true

/-- The receiver of a byte acknowledges it: the data line is low in the ninth bit, and a line left high is none. -/
def acknowledged (ninth : Bool) : Bool := !ninth

/-- The device works through the items of a transfer and looks at the data line, true being high, where it leaves the
line to the memory: before a start condition, in the ninth bit of each byte written, and in the eight bits of each
byte read. The bytes read, or why the transfer fails. `address`: the byte written next is the address byte that
follows a start condition. -/
def portRun (address : Bool) : List PortItem → List Bool → TransferEnd
  | [], _ => .done []
  | .start :: items, levels | .repeatedStart :: items, levels =>
    if levels.headD true then portRun true items levels.tail else .failed .dataLow
  | .write _ :: items, levels =>
    if acknowledged (levels.headD true) then portRun false items levels.tail
    else .failed (if address then .noAckAddress else .noAckBlockStart)
  | .read _ :: items, levels =>
    match portRun false items (levels.drop 8) with
    | .done bytes => .done (portByte (levels.take 8) :: bytes)
    | .failed cause => .failed cause
  | .stop :: items, levels => portRun false items levels

/-! ### Runs (R3) -/

/-- The class of a dominant run of `len` bit times (R3). -/
def runClass (len : Nat) : RunClass :=
  if len < 24 then .short
  else if len ≤ 48 then .frameMark
  else if len ≤ 79 then .malformed
  else if len ≤ 112 then .cycleMark
  else if len ≤ 200 then .malformed
  else .stuck

/-- A valid mark: a frame mark or a cycle mark (R3). -/
def RunClass.valid : RunClass → Bool
  | .frameMark | .cycleMark => true
  | .short | .malformed | .stuck => false

/-! ### Places in the frame (R4) -/

/-- Bit times from the frame start to the beginning of slot `k` (R4). -/
def slotBegin (k : StationId) : Nat := tMS + tSL * k.val

/-- Bit times from the frame start to the end of slot `k` (R4). -/
def slotFinish (k : StationId) : Nat := tMS + tSL * (k.val + 1)

/-- Slot `k` is this station's own slot (R4). -/
def State.ownSlot (s : State) (k : StationId) : Bool := s.plan.any fun p => p.station == k

/-- The frame timer stands at or past `t` bit times after the frame start. -/
def Line.reached (l : Line) (t : Nat) : Bool := l.frameTimer.any fun a => decide (t ≤ a)

end Sys2Proof.Machine
end

