-- ==== Sys2Proof/WellFormed.lean ====
section
/-! DEFINITION. WellFormed.lean: which commands describe something that can happen at the device's ways in. -/

namespace Sys2Proof

/-- The seven query characters S, G, D, P, C, F, N (R195). -/
def queryChars : List Byte := [83, 71, 68, 80, 67, 70, 78]

/-- Candidate start edges in order, each after the one before it (R2). -/
def rising : List RxEdge → Bool
  | a :: b :: l => decide (a.pos < b.pos) && rising (b :: l)
  | _ => true

/-- A command's operands lie within what the data book allows for its row. -/
def Instr.wellFormed : Instr → Bool
  | .dominantRunEnd len _ => decide (1 ≤ len)
  | .lineStuck run => decide (184 ≤ run)
  | .collision (.dominant (some run)) => decide (1 ≤ run ∧ run < 24)
  | .slotReception _ pos levels further =>
    rising (⟨pos, levels⟩ :: further) && (⟨pos, levels⟩ :: further).all fun e => decide (e.pos < 360)
  | .peerClassification _ chars => decide (16 ≤ chars.length ∧ chars.length ≤ 24)
  | .conflict a b => decide (a < b)
  | .planTransfer levels =>
    levels.take 6 == [true, false, false, false, true, false] &&
      (List.range 64).any fun n => levels.length == 6 + 8 * (n + 1)
  | .transferFailure levels =>
    decide (levels.length ≤ 6) &&
      match Machine.portRun false (Machine.transferItems 0 64) levels with
      | .done _ => false
      | .failed _ => true
  | .stationQuery levels => Machine.rxCharacter levels == .char 83
  | .groupsQuery levels => Machine.rxCharacter levels == .char 71
  | .detectorsQuery levels => Machine.rxCharacter levels == .char 68
  | .peersQuery levels => Machine.rxCharacter levels == .char 80
  | .claimsQuery levels => Machine.rxCharacter levels == .char 67
  | .faultsQuery levels => Machine.rxCharacter levels == .char 70
  | .countsQuery levels => Machine.rxCharacter levels == .char 78
  | .errorReply levels =>
    match Machine.rxCharacter levels with
    | .char c => !queryChars.contains c
    | .noise | .framingError => false
  | .diagFramingError levels => Machine.rxCharacter levels == .framingError
  | .diagCharacterIgnored levels => Machine.rxCharacter levels != .noise
  | .startUpReset _ | .resetRelease | .frameTimerExpiry _ | .markDriveEnd | .joinWindowClose
  | .frameSlip | .recordTransmission | .recordTransmissionEnd | .collision .recessive | .collision (.dominant none) | .ownSlotEnd
  | .silentFaultHoldEnd | .listenEnd | .stuckEnd | .slotSilent _ | .peerLost _ | .peerAbsent _
  | .startHoldEnd | .unsetWaitEnd | .divergenceAdoption | .patternLineChange _ _ _
  | .requestedPatternChange | .openGrant _ | .prepareEnd _ | .minGreenEnd _ | .gapOut _ | .maxDone _
  | .clearingEnd _ | .manualChange _ _ | .advancePress _ _ | .detectorInputChange _ _ | .initialLevel _
  | .detectorRisingEdge _ | .detectorFallingEdge _ | .pulseOccupancyEnd _ | .faultStuck _ | .faultSilent _
  | .withdrawalDetected _ _ | .claimReady _ _ | .claimArrived _ _ | .holdEnd _ _ | .claimLifetimeEnd _ _
  | .flashPhaseChange | .senseChange _ _ _ | .settleEnd _ | .greenInFlash _ | .redOut _
  | .uncommandedOn _ | .lampOut _ | .selfCheckPass | .startFlashEnd | .allRedEnd
  | .flashRequestChange _ _ | .panelFaultReset _ _ | .transferRetry | .planValidation
  | .diagReplyEnd | .selfCheckSettleEnd => true

end Sys2Proof
end

