-- ==== Sys2Proof/Decode.lean ====
section
/-! DEFINITION. Decode.lean: the table of operations and events gives no row any bits, so no word spells a command. -/

namespace Sys2Proof

/-- No row of the table has bits: no word is a command (log 30). -/
def decodeTableWord (_nbits _w : Nat) : Option Instr := none

end Sys2Proof
end

