-- ==== Sys2Proof/Machine/Flags.lean ====
section
/-! DEFINITION. Machine/Flags.lean: the conditions the blocks judge from one another's state: occupancy, calls, extension, demand, eligibility, stage end, lamp states. -/

namespace Sys2Proof.Machine

/-! ### Detectors, calls and extension -/

/-- A local detector is occupied (R112). -/
def State.occupied (s : State) (d : LocalId) : Bool :=
  match s.localDef d with
  | none => false
  | some f =>
    match f.mode with
    | .pulse => (s.dets.nth d).pulse.isSome
    | .presence | .button | .claim _ _ | .checkout _ => (s.dets.nth d).level

/-- A local detector is in FAULT_STUCK or FAULT_SILENT (R121). -/
def State.faulted (s : State) (d : LocalId) : Bool :=
  (s.localDef d).isSome && !((s.dets.nth d).fault == .normal)

/-- A detector that counts as occupied for calls and extension (R121). -/
def State.occupiedOrFaulted (s : State) (d : LocalId) : Bool := s.occupied d || s.faulted d

/-- A remote detector that is occupied or in fault (R123, R124). -/
def State.remoteOn (s : State) (r : RemoteId) : Bool :=
  (s.remoteDef r).isSome &&
    match s.remotes.nth r with
    | .unused => false
    | .normal o => o
    | .lost => true

/-- Detector `d` calls group `g` continuously with a locking call: PRESENCE with its locking flag or PULSE
while occupied or in fault, BUTTON while in fault (R115). -/
def State.callsLocking (s : State) (d : LocalId) (g : GroupId) : Bool :=
  match s.localDef d with
  | none => false
  | some f =>
    BitSet.has f.calls g &&
      match f.mode with
      | .presence => f.locking && s.occupiedOrFaulted d
      | .pulse => s.occupiedOrFaulted d
      | .button => s.faulted d
      | .claim _ _ | .checkout _ => false

/-- Detector `d` makes a non-locking call to group `g` (R116). -/
def State.callsNonLocking (s : State) (d : LocalId) (g : GroupId) : Bool :=
  match s.localDef d with
  | none => false
  | some f =>
    match f.mode with
    | .presence => BitSet.has f.calls g && !f.locking && s.occupiedOrFaulted d
    | .pulse | .button | .claim _ _ | .checkout _ => false

/-- The locking call flag of a group: its set of locking callers is not empty (R114). -/
def State.lockingCall (s : State) (g : GroupId) : Bool := !(s.callers.nth g == 0)

/-- A remote detector calls group `g` (R116, R123). -/
def State.remoteCall (s : State) (g : GroupId) : Bool :=
  anyFin fun r => (s.remoteDef r).any (fun f => BitSet.has f.calls g) && s.remoteOn r

/-- A group has a call (R116). -/
def State.hasCall (s : State) (g : GroupId) : Bool :=
  s.lockingCall g || anyFin (fun d => s.callsNonLocking d g) || s.remoteCall g || (s.groupPlan g).recallFlag

/-- A group appears in some detector's extend list (R71, R72). -/
def State.hasExtender (s : State) (g : GroupId) : Bool :=
  anyFin (fun d => (s.localDef d).any fun f => BitSet.has f.extends_ g) ||
    anyFin (fun r => (s.remoteDef r).any fun f => BitSet.has f.extends_ g)

/-- The extension input of a group (R118). -/
def State.extended (s : State) (g : GroupId) : Bool :=
  anyFin (fun d => (s.localDef d).any (fun f => BitSet.has f.extends_ g) && s.occupiedOrFaulted d) ||
    anyFin (fun r => (s.remoteDef r).any (fun f => BitSet.has f.extends_ g) && s.remoteOn r)

/-- The group keeps a gap timer: VEHICLE with at least one extending detector (R68, R71). -/
def State.gapTimed (s : State) (g : GroupId) : Bool :=
  (s.groupPlan g).kind == .vehicle && s.hasExtender g

/-- Some group that conflicts with `g` has a call (R73). -/
def State.conflictingCall (s : State) (g : GroupId) : Bool :=
  anyFin fun h => s.conflicts g h && s.hasCall h

/-! ### Groups -/

/-- A group is in PREPARE or CLEARING (R80, R176). -/
def GState.moving : GState → Bool
  | .prepare | .clearing => true
  | .red | .green | .flashing | .dark => false

/-- A group shows or has just shown a green aspect: outside RED, FLASHING and DARK (R66). -/
def GState.rightOfWay : GState → Bool
  | .prepare | .green | .clearing => true
  | .red | .flashing | .dark => false

/-- The count of groups in PREPARE or CLEARING (R80). -/
def State.movingCount (s : State) : Nat := countFin fun g => (s.groups.nth g).state.moving

/-- Every group conflicting with `g` is in RED with a RED time of at least tIG from it to `g` (R66). -/
def State.clearedFor (s : State) (g : GroupId) : Bool :=
  allFin fun h => !s.conflicts h g ||
    ((s.groups.nth h).state == .red && decide (tenth * s.clearance h g ≤ (s.groups.nth h).time))

/-- The group is open pending and its conflicting groups have served their clearance (R66). -/
def State.clearToOpen (s : State) (g : GroupId) : Bool :=
  s.used g && (s.groups.nth g).state == .red && (s.groups.nth g).held == .open && s.clearedFor g

/-- The arbiter lets `g` leave RED: no lower-numbered conflicting group is clear to open too (R66). -/
def State.grantable (s : State) (g : GroupId) : Bool :=
  s.clearToOpen g && !anyFin fun h => decide (h < g) && s.conflicts h g && s.clearToOpen h

/-! ### Cycle and stages -/

/-- Coordinated operation: a coordinated active pattern and the clock SET (R86). -/
def State.coordinatedOp (s : State) : Bool := s.cycle.set && decide (0 < s.cycle.active.val)

/-- The corridor position less OFS, modulo C (R47). -/
def localOf (c ofs position : Nat) : Nat := if ofs ≤ position then position - ofs else position + c - ofs

/-- The local position, 0 while the clock is UNSET (R47, R56). -/
def State.localPosition (s : State) : Nat :=
  match s.plan with
  | none => 0
  | some p =>
    match p.patternOf s.cycle.active with
    | none => 0
    | some d => if s.cycle.set then localOf (p.cOf s.cycle.active) d.ofs s.cycle.position else 0

/-- A stage has demand (R86). -/
def State.demand (s : State) (t : StageId) : Bool :=
  (s.coordinatedOp && s.mainStage == some t) ||
    anyFin fun g => BitSet.has (s.stageGroups t) g && !((s.groups.nth g).state == .green) && s.hasCall g

/-- The largest tMIN, in positions, of the groups of a stage that are not GREEN (R91). -/
def State.tMINOf (s : State) (t : StageId) : Nat :=
  (List.finRange 16).foldl (fun m g =>
    if BitSet.has (s.stageGroups t) g && !((s.groups.nth g).state == .green)
    then max m (s.groupPlan g).tMIN else m) 0

/-- A stage of the sequence list is eligible (R91). -/
def State.eligible (s : State) (t : StageId) : Bool :=
  !s.coordinatedOp || s.mainStage == some t ||
    match s.plan with
    | none => false
    | some p =>
      match p.patternOf s.cycle.active with
      | none => false
      | some d => decide (d.pREL ≤ s.localPosition) && decide (s.localPosition + s.tMINOf t < d.pFO.nth t)

/-- The search order for a next stage: the entries after `t`, wrapping, before reaching `t` again; the whole
list where `t` is not in it (R90). -/
def searchOrder (seq : List StageId) (t : StageId) : List StageId :=
  if seq.contains t then (seq.dropWhile (· != t)).drop 1 ++ seq.takeWhile (· != t) else seq

/-- The first stage in search order that has demand and is eligible (R90). -/
def State.selectTarget (s : State) (t : StageId) : Option StageId :=
  (searchOrder s.sequence t).find? fun u => s.demand u && s.eligible u

/-- Every group of a stage satisfies `p`. -/
def State.stageAll (s : State) (t : StageId) (p : Group → Bool) : Bool :=
  allFin fun g => !BitSet.has (s.stageGroups t) g || p (s.groups.nth g)

/-- The hold of R100: the sequencer dwells in the asserted service stage. -/
def State.holding (s : State) (t : StageId) : Bool := s.seq.service == some t

/-- In DWELL(t) the stage may end (R87); not under MANUAL (R102), the hold (R100) or the flash entry wait
(R104). -/
def State.mayEnd (s : State) (t : StageId) : Bool :=
  !s.manualFlag && !s.holding t && !s.ctrl.wait &&
    if s.coordinatedOp && s.mainStage == some t then s.seq.release
    else
      s.stageAll t (fun g => g.minDone && (g.gapped || g.maxDone)) ||
        (s.coordinatedOp && s.seq.forceOff && s.stageAll t (fun g => g.minDone))

/-- The current stage (R84): in DWELL the stage, in CHANGE the from-stage. -/
def SeqState.current : SeqState → Option StageId
  | .idle => none
  | .dwell t => some t
  | .change c => c.fromStage

/-- The target as the record shows it: in CHANGE the replacement target or the to-stage, none otherwise
(R107). -/
def SeqState.shownTarget : SeqState → Option StageId
  | .idle | .dwell _ => none
  | .change c => some (c.replacement.getD c.toStage)

/-- The target of R84: in DWELL(s) it is s. -/
def SeqState.target : SeqState → Option StageId
  | .idle => none
  | .dwell t => some t
  | .change c => some (c.replacement.getD c.toStage)

/-- The change has a group of its opening set that has left RED (R94). -/
def State.openingLeftRed (s : State) (c : Change) : Bool :=
  anyFin fun g => BitSet.has c.opening g &&
    ((s.groups.nth g).state == .prepare || (s.groups.nth g).state == .green)

/-- Every group of the to-stage is GREEN and every group of the closing set is RED (R95). -/
def State.changeComplete (s : State) (c : Change) : Bool :=
  s.stageAll c.toStage (fun g => g.state == .green) &&
    allFin fun g => !BitSet.has c.closing g || (s.groups.nth g).state == .red

/-! ### Claims -/

/-- Some claim table entry of the route is SERVING (R141). -/
def State.serving (s : State) (n : RouteId) : Bool :=
  s.claims.table.any fun e => e.route == n && e.state == .serving

/-- Some claim table entry is SERVING (R141). -/
def State.servingAny (s : State) : Bool := s.claims.table.any fun e => e.state == .serving

/-! ### Lamps -/

/-- The channel of a group and colour (R151): `colour` 0 red, 1 amber, 2 green. -/
def chanOf (g : GroupId) (colour : Fin 3) : ChanId := ⟨3 * g.val + colour.val, by omega⟩

/-- A sign channel (R151). -/
def chanOfSign (k : SignId) : ChanId := ⟨48 + k.val, by omega⟩

/-- The on or off state that a command expects in a flash phase (R155); also the channel's output (R151). -/
def Command.expected (phase : Bool) : Command → Bool
  | .on => true
  | .off => false
  | .flash => phase

/-- A channel is judged: no settle time runs (R155). -/
def Chan.judged (c : Chan) : Bool := c.settle.isNone

/-- The sensed state of a channel (R154). -/
def Chan.sensed (c : Chan) : Bool := c.sense.asserted

/-- A channel's sensed state. -/
def State.sensed (s : State) (c : ChanId) : Bool := (s.lamps.channels.nth c).sensed

/-- A group is lit for the CONFLICT check (R156): green or amber sensed on, for a WALK group green alone. -/
def State.lit (s : State) (g : GroupId) : Bool :=
  s.sensed (chanOf g 2) || (!((s.groupPlan g).kind == .walk) && s.sensed (chanOf g 1))

/-- The CONFLICT timing of a pair runs (R156). -/
def State.pairLit (s : State) (a b : GroupId) : Bool :=
  s.ctrl.mode.isStreet && s.conflicts a b && s.lit a && s.lit b

/-- The GREEN_IN_FLASH timing of a green channel runs (R157). -/
def State.greenLit (s : State) (g : GroupId) : Bool := s.ctrl.mode.isFlash && s.sensed (chanOf g 2)

/-- RED_OUT looks at this group: the check is enabled, the group VEHICLE and in RED (R158). -/
def State.redWatched (s : State) (g : GroupId) : Bool :=
  s.ctrl.mode.isStreet && (s.groupPlan g).kind == .vehicle && (s.groups.nth g).state == .red

/-- The group's red is out: watched, its red channel judged and sensed off (R158). -/
def State.redDark (s : State) (g : GroupId) : Bool :=
  s.redWatched g && (s.lamps.channels.nth (chanOf g 0)).judged && !s.sensed (chanOf g 0)

/-- At least one sticky lamp flag is set (R164). -/
def State.anySticky (s : State) : Bool :=
  anyFin fun c => (s.lamps.channels.nth c).unSticky || (s.lamps.channels.nth c).loSticky

end Sys2Proof.Machine
end

