-- ==== Sys2Proof/Machine/Lamps.lean ====
section
/-! DEFINITION. Machine/Lamps.lean: channel commands from group states and sign sources, the effects of a change of command or phase, and the timings of the monitor checks. -/

namespace Sys2Proof.Machine

/-- The aspect of a VEHICLE group, channel by channel: 0 red, 1 amber, 2 green (R62). -/
def vehicleCommand (aspect : FlashAspect) (st : GState) (colour : Fin 3) : Command :=
  match st, colour with
  | .red, 0 => .on
  | .prepare, 0 => .on
  | .prepare, 1 => .on
  | .green, 2 => .on
  | .clearing, 1 => .on
  | .flashing, 0 => if aspect = .red then .flash else .off
  | .flashing, 1 => if aspect = .amber then .flash else .off
  | _, _ => .off

/-- The aspect of a WALK group (R62); its amber channel is off in every state (R59). -/
def walkCommand (aspect : FlashAspect) (st : GState) (colour : Fin 3) : Command :=
  match st, colour with
  | .red, 0 => .on
  | .green, 2 => .on
  | .clearing, 2 => .flash
  | .flashing, 0 => if aspect = .red then .flash else .off
  | _, _ => .off

/-- The command of a group's channel (R62, R59); without a valid plan a FLASHING group flashes amber (R79). -/
def State.groupCommand (s : State) (g : GroupId) (colour : Fin 3) : Command :=
  match s.plan with
  | none => if (s.groups.nth g).state = .flashing ∧ colour = 1 then .flash else .off
  | some p =>
    match (p.groups.nth g).kind with
    | .unused => .off
    | .vehicle => vehicleCommand (p.groups.nth g).aspect (s.groups.nth g).state colour
    | .walk => walkCommand (p.groups.nth g).aspect (s.groups.nth g).state colour

/-- A sign channel's source is true (R152). -/
def State.signTrue (s : State) : SignSource → Bool
  | .none => false
  | .groupGreen g => (s.groups.nth g).state == .green
  | .groupNotRed g => (s.groups.nth g).state.rightOfWay
  | .callWaiting g => s.lockingCall g
  | .claimServing n => s.serving n
  | .claimServingAny => s.servingAny
  | .flashing => s.ctrl.mode.isFlash

/-- The command of a sign channel (R152): off without a valid plan and in CHECK. -/
def State.signCommand (s : State) (k : SignId) : Command :=
  match s.plan with
  | none => .off
  | some p => if s.ctrl.mode ≠ .check ∧ s.signTrue (p.signs.nth k) then .on else .off

/-- The command every channel's source gives now (R151). -/
def State.commandOf (s : State) (c : ChanId) : Command :=
  if h : c.val < 48 then s.groupCommand ⟨c.val / 3, by omega⟩ ⟨c.val % 3, Nat.mod_lt _ (by omega)⟩
  else s.signCommand ⟨c.val - 48, by omega⟩

/-- A channel takes a command: a change of command returns both its timings to 0 and clears its live flags
(R160, R161), and starts its settle time, also where the expected state of the moment is the same (R155, R165;
log 44). -/
def Chan.takeCommand (phase : Bool) (cmd : Command) (c : Chan) : Chan :=
  if cmd = c.command then c
  else
    { c with
      command := cmd
      output := cmd.expected phase
      unTime := 0, loTime := 0, unLive := false, loLive := false
      settle := some 0 }

/-- A judged channel that agrees with its expected state returns the timing of that kind to 0 and clears
its live flag (R160, R161). -/
def Chan.agree (phase : Bool) (c : Chan) : Chan :=
  if c.judged then
    match c.command.expected phase, c.sensed with
    | false, false => { c with unTime := 0, unLive := false }
    | true, true => { c with loTime := 0, loLive := false }
    | _, _ => c
  else c

/-- The flash phase changes under a channel: a flash output follows and its settle time starts (R155). -/
def Chan.phaseChange (phase : Bool) (c : Chan) : Chan :=
  if c.command = .flash then { c with output := phase, settle := some 0 } else c

/-- The timings of the checks that are disabled, or whose condition does not hold, stand at 0 (R156, R157,
R158, R159); a watched red holds its timing while its channel is unjudged. -/
def State.monitorSync (s : State) : State :=
  { s with lamps := { s.lamps with
      pairs := .tab fun a => .tab fun b => if s.pairLit a b then (s.lamps.pairs.nth a).nth b else 0
      greens := .tab fun g => if s.greenLit g then s.lamps.greens.nth g else 0
      reds := .tab fun g =>
        if s.redWatched g && !((s.lamps.channels.nth (chanOf g 0)).judged && s.sensed (chanOf g 0))
        then s.lamps.reds.nth g else 0 } }

/-- Every channel takes the command its source gives, and the checks follow (R62, R151, R152). -/
def State.lampSync (s : State) : State :=
  State.monitorSync { s with lamps := { s.lamps with
      channels := .tab fun c =>
        ((s.lamps.channels.nth c).takeCommand s.lamps.phase (s.commandOf c)).agree s.lamps.phase } }

/-- The flash generator's phase changes and its count returns to 0 (R153). -/
def State.flashPhase (s : State) : State :=
  State.monitorSync { s with lamps := { s.lamps with
      phase := !s.lamps.phase
      flashCount := 0
      channels := .tab fun c => (s.lamps.channels.nth c).phaseChange (!s.lamps.phase) } }

/-- The flash generator at a frame boundary (R153). -/
def State.flashBoundary (s : State) : State :=
  if s.lamps.flashCount + 1 = flashHalf then s.flashPhase
  else { s with lamps := { s.lamps with flashCount := s.lamps.flashCount + 1 } }

/-- The self-check starts at an entry to CHECK (R165). -/
def State.selfCheckStart (s : State) : State :=
  { s with lamps := { s.lamps with
      selfCheck := .running, selfTime := 0, selfJudging := false, firstFailing := none,
      checkPassed := false } }

/-- The clear lamp flags order: each sticky flag takes the value of its live flag (R161). -/
def State.clearLampFlags (s : State) : State :=
  { s with lamps := { s.lamps with
      channels := .tab fun c =>
        let ch := s.lamps.channels.nth c
        { ch with unSticky := ch.unLive, loSticky := ch.loLive } } }

/-- The clear latches order: both latches and their cause records (R163). -/
def State.clearLatches (s : State) : State :=
  { s with lamps := { s.lamps with conflict := none, redOut := none } }

end Sys2Proof.Machine
end

