-- ==== Sys2Proof/Machine/Groups.lean ====
section
/-! DEFINITION. Machine/Groups.lean: what a group does at each change of state, how it takes a request, and forcing. -/

namespace Sys2Proof.Machine

/-! ### One group record -/

/-- The green period's flags and timers are cleared (R60, R74, R76). -/
def Group.clearGreen (g : Group) : Group :=
  { g with minDone := false, gapped := false, gap := 0, maxRunning := false, maxLeft := 0, maxDone := false }

/-- Entry to a forced state (R76, R77) and release to RED (R78). -/
def Group.force (st : GState) (g : Group) : Group :=
  { g.clearGreen with state := st, held := .none, time := 0 }

/-- Entry to CLEARING on a granted close (R74). -/
def Group.toClearing (g : Group) : Group :=
  { g.clearGreen with state := .clearing, held := .none, time := 0 }

/-- Entry to RED at the end of tCLR; a held OPEN stays held (R74, R64). -/
def Group.toRed (g : Group) : Group := { g with state := .red, time := 0 }

/-- Entry to PREPARE on a granted open (R66, R67). -/
def Group.toPrepare (g : Group) : Group := { g with state := .prepare, held := .none, time := 0 }

/-- Entry to GREEN (R68): a close held from PREPARE stays held; `gap` is the gap timer's load. -/
def Group.toGreen (gap : Nat) (g : Group) : Group :=
  { g.clearGreen with
    state := .green
    held := if g.held = .close then .close else .none
    time := 0
    gap := gap }

/-- An open request taken at a group (R65). -/
def Group.openRequest (g : Group) : Group :=
  match g.state, g.held with
  | .red, .none => { g with held := .open }
  | .clearing, .none => { g with held := .open }
  | .prepare, .close => { g with held := .none }
  | .green, .close => { g with held := .none }
  | _, _ => g

/-- A close request taken at a group (R70). -/
def Group.closeRequest (g : Group) : Group :=
  match g.state, g.held with
  | .green, .none => if g.minDone then g.toClearing else { g with held := .close }
  | .prepare, .none => { g with held := .close }
  | .red, .open => { g with held := .none }
  | .clearing, .open => { g with held := .none }
  | _, _ => g

/-! ### Groups in the station -/

/-- tGAP in ticks where the group keeps a gap timer, 0 otherwise (R68, R72). -/
def State.gapLoad (s : State) (g : GroupId) : Nat :=
  if s.gapTimed g then tenth * (s.groupPlan g).tGAP else 0

/-- A group enters GREEN: its green period starts and its call memory is cleared (R68, R115). -/
def State.enterGreen (s : State) (g : GroupId) : State :=
  State.lampSync { s with
    groups := s.groups.upd g (Group.toGreen (s.gapLoad g))
    callers := s.callers.put g 0 }

/-- A granted group leaves RED, for PREPARE where its tPRE is above 0.0 and for GREEN otherwise (R66). -/
def State.leaveRed (s : State) (g : GroupId) : State :=
  if 0 < (s.groupPlan g).tPRE then (s.updGroup g Group.toPrepare).lampSync
  else (s.updGroup g fun r => { r with held := .none }).enterGreen g

/-- The lowest-numbered group that is clear to open leaves RED (R66); none when no group is. -/
def State.grantStep (s : State) : Option State :=
  (firstFin fun g => s.clearToOpen g).map fun g => s.leaveRed g

/-- Open requests to the groups of a stage, close requests to every other group; requests to an UNUSED
group are dropped (R93, R65, R70). -/
def State.request (s : State) (t : StageId) : State :=
  State.lampSync { s with
    groups := .tab fun g =>
      let r := s.groups.nth g
      if s.used g then
        if BitSet.has (s.stageGroups t) g then r.openRequest else r.closeRequest
      else r }

/-- The state a force input puts the groups in (R76, R77, R78). -/
def Force.groupState : Force → GState
  | .none => .red
  | .flashing => .flashing
  | .dark => .dark

/-- The force input changes: every group other than an UNUSED one takes the forced state; without a valid
plan all sixteen do (R76, R77, R78, R79). -/
def State.forceAll (s : State) (f : Force) : State :=
  { s with
    groups := .tab fun g =>
      if s.plan.isNone || s.used g then (s.groups.nth g).force f.groupState else s.groups.nth g }

/-! ### Calls and timers that follow their inputs -/

/-- A detector that calls continuously joins the locking callers of each group that is not GREEN (R115). -/
def State.joinCallers (s : State) : State :=
  { s with
    callers := .tab fun g =>
      if (s.groups.nth g).state = .green then s.callers.nth g
      else s.callers.nth g ||| bitsOf fun d => s.callsLocking d g }

/-- The gap timer of a GREEN group is held at tGAP while its extension input is occupied (R71), and its max
timer starts at the first conflicting call of its green (R73). -/
def State.judgeGreen (s : State) (g : GroupId) (r : Group) : Group :=
  if r.state = .green ∧ (s.groupPlan g).kind = .vehicle then
    let r1 := if s.gapTimed g ∧ !r.gapped ∧ s.extended g then { r with gap := tenth * (s.groupPlan g).tGAP } else r
    if !r1.maxRunning ∧ s.conflictingCall g
    then { r1 with maxRunning := true, maxLeft := tenth * (s.groupPlan g).tMAX } else r1
  else r

/-- Every GREEN group judges its gap and max timers. -/
def State.judgeTimers (s : State) : State :=
  { s with groups := .tab fun g => s.judgeGreen g (s.groups.nth g) }

/-- Calls and group timers as they stand once an event is taken (R117, R118). -/
def State.follow (s : State) : State := s.joinCallers.judgeTimers

end Sys2Proof.Machine
end

