-- ==== Sys2Proof/Machine/Sequencer.lean ====
section
/-! DEFINITION. Machine/Sequencer.lean: the stage sequencer's operations: beginning, replacing, committing and completing a change, the service stage, and the cycle notices. -/

namespace Sys2Proof.Machine

/-- The sequencer's state replaced. -/
def State.withSeq (s : State) (st : SeqState) : State := { s with seq := { s.seq with st := st } }

/-- The groups of a stage that are not GREEN: an opening set (R93, R96). -/
def State.openingSet (s : State) (t : StageId) : GroupSet :=
  bitsOf fun g => BitSet.has (s.stageGroups t) g && !((s.groups.nth g).state == .green)

/-- A change begins from DWELL(from) to `t` (R93). An empty opening set commits it at once. -/
def State.beginChange (s : State) (fromStage t : StageId) : State :=
  let closing := bitsOf fun g => (s.groups.nth g).state == .green && !BitSet.has (s.stageGroups t) g
  let opening := s.openingSet t
  State.request
    { s with seq := { s.seq with
        st := .change { fromStage := some fromStage, toStage := t, closing := closing, opening := opening,
                        committed := opening == 0, replacement := none }
        forceOff := false } } t

/-- An uncommitted change is replaced by one to `t` (R96). -/
def State.replaceChange (s : State) (c : Change) (t : StageId) : State :=
  let closing := bitsOf fun g =>
    ((s.groups.nth g).state == .green || (s.groups.nth g).state == .clearing) &&
      !BitSet.has (s.stageGroups t) g
  let opening := s.openingSet t
  State.request
    { s with seq := { s.seq with
        st := .change { fromStage := c.fromStage, toStage := t, closing := closing, opening := opening,
                        committed := opening == 0, replacement := none }
        forceOff := false } } t

/-- The start change at an entry to RUNNING (R98). -/
def State.startChange (s : State) : State :=
  match s.mainStage with
  | none => s
  | some m =>
    State.request (s.withSeq (.change
      { fromStage := none, toStage := m, closing := 0, opening := s.stageGroups m, committed := true,
        replacement := if s.seq.service = some m then none else s.seq.service })) m

/-- The exit from RUNNING (R85). -/
def State.exitRunning (s : State) : State :=
  { s with seq := { s.seq with st := .idle, release := false, forceOff := false } }

/-- A change completes (R95): DWELL of the to-stage, and a fresh change to a replacement target. -/
def State.completeChange (s : State) (c : Change) : State :=
  let s1 := { s with seq := { s.seq with
    st := .dwell c.toStage
    release := if s.mainStage = some c.toStage then false else s.seq.release } }
  match c.replacement with
  | none => s1
  | some t => if t = c.toStage then s1 else s1.beginChange c.toStage t

/-- One step of the sequencer's own: commit (R94), completion (R95), or the selection of a stage that may end
(R87, R90, R92). None when nothing of it holds. -/
def State.seqStep (s : State) : Option State :=
  match s.seq.st with
  | .idle => none
  | .change c =>
    if !c.committed && s.openingLeftRed c then some (s.withSeq (.change { c with committed := true }))
    else if s.changeComplete c then some (s.completeChange c)
    else none
  | .dwell t =>
    if s.mayEnd t then (s.selectTarget t).map fun u => s.beginChange t u else none

/-! ### Service stage (R99, R101) -/

/-- The service stage `c` is asserted (R99). -/
def State.assertService (s : State) (c : StageId) : State :=
  match s.seq.st with
  | .idle => s
  | .dwell t => if t = c then s else s.beginChange t c
  | .change r =>
    if r.committed then
      s.withSeq (.change { r with replacement := if r.toStage = c then none else some c })
    else if r.toStage = c then s
    else s.replaceChange r c

/-- The asserted service stage becomes none (R101): a replacement target is dropped, and under a coordinated
pattern the step state becomes SEEKING. -/
def State.endService (s : State) : State :=
  let st := match s.seq.st with
    | .idle => SeqState.idle
    | .dwell t => .dwell t
    | .change r => .change { r with replacement := none }
  { s with seq := { s.seq with
      st := st
      step := if s.cycle.active = 0 then s.seq.step else .seeking } }

/-- The sequencer receives the asserted service stage; only a change of it is an event (R99, R141). -/
def State.setService (s : State) (new : Option StageId) : State :=
  if new = s.seq.service then s
  else
    let s1 := { s with seq := { s.seq with service := new } }
    match new with
    | some c => s1.assertService c
    | none => s1.endService

/-! ### ADVANCE (R103) -/

/-- The entry after `t` in the sequence list, wrapping; the main stage where `t` is not in it (R103). -/
def nextStage (seq : List StageId) (t : StageId) : Option StageId :=
  if seq.contains t then
    match (seq.dropWhile (· != t)).drop 1 with
    | u :: _ => some u
    | [] => seq.head?
  else seq.head?

/-- An ADVANCE press is taken (R103). -/
def State.advance (s : State) : State :=
  if s.manualFlag && s.seq.service == none && !s.ctrl.wait then
    match s.seq.st with
    | .idle => s
    | .dwell t =>
      match nextStage s.sequence t with
      | some u => if u = t then s else s.beginChange t u
      | none => s
    | .change c =>
      if c.committed then s
      else
        match nextStage s.sequence c.toStage with
        | some u => if u = c.toStage then s else s.replaceChange c u
        | none => s
  else s

/-! ### Cycle notices (R105, R106) -/

/-- Every group of the main stage is GREEN (R106). -/
def State.mainGreen (s : State) : Bool :=
  match s.mainStage with
  | none => false
  | some m => s.stageAll m fun g => g.state == .green

/-- The sequencer stands in DWELL of the main stage or in a change (R106). -/
def State.atMain (s : State) : Bool :=
  match s.seq.st with
  | .idle => false
  | .dwell t => s.mainStage == some t
  | .change _ => true

/-- The force-off point of `x` sets the flag in DWELL(x) and in a change to `x` (R88). -/
def SeqState.workingToward (x : StageId) : SeqState → Bool
  | .idle => false
  | .dwell t => t == x
  | .change c => c.toStage == x

/-- The step state after a boundary's notices, but for the zero point (R105, steps 1 and 3). -/
def stepAfterNotices (active : PatternId) (n : Notices) (st : StepState) : StepState :=
  let st1 := match n.patternChanged with
    | none => st
    | some old => if active = 0 then .isolated else if old = 0 then .seeking else st
  if (n.clockUnset || n.disturbed) && !(active == 0) then .seeking else st1

/-- The sequencer acts on the notices of one boundary, in the order of R105; a zero point is taken in IDLE
too (R106; log 18). -/
def State.takeNotices (s : State) (n : Notices) : State :=
  let clears := n.patternChanged.isSome || n.clockSet
  let release := if clears then false else s.seq.release
  let forceOff := if clears then false else s.seq.forceOff
  let step := stepAfterNotices s.cycle.active n s.seq.step
  let running := !(s.seq.st == .idle)
  { s with seq := { s.seq with
      release := if running && n.point == some .release then true else release
      forceOff := match n.point with
        | some (.forceOff x) => if s.seq.st.workingToward x then true else forceOff
        | some .zero | some .release | none => forceOff
      step :=
        if n.point == some .zero && !(s.cycle.active == 0) then
          if s.mainGreen && s.atMain && !n.disturbed && !n.clockSet then .inStep else .seeking
        else step } }

end Sys2Proof.Machine
end

