-- ==== Sys2Proof/Machine/Claims.lean ====
section
/-! DEFINITION. Machine/Claims.lean: the claim unit: arbitration, the claim table, own claims, and the claim unit at a frame boundary. -/

namespace Sys2Proof.Machine

/-! ### Entries -/

/-- The entry has the identity (origin, serial) (R131). -/
def ClaimEntry.is (origin : StationId) (serial : Fin 16) (e : ClaimEntry) : Bool :=
  e.origin == origin && e.serial == serial

/-- The entry with an identity, if the table has it. -/
def State.findClaim (s : State) (origin : StationId) (serial : Fin 16) : Option ClaimEntry :=
  s.claims.table.find? (·.is origin serial)

/-- The first entry that satisfies `p` changed by `f`. -/
def updFirst {α : Type} (p : α → Bool) (f : α → α) : List α → List α
  | [] => []
  | e :: l => if p e then f e :: l else e :: updFirst p f l

/-- The claim table replaced. -/
def State.withClaimTable (s : State) (t : List ClaimEntry) : State :=
  { s with claims := { s.claims with table := t } }

/-- The entry with an identity changed by `f`. -/
def State.updClaim (s : State) (origin : StationId) (serial : Fin 16) (f : ClaimEntry → ClaimEntry) : State :=
  s.withClaimTable (updFirst (·.is origin serial) f s.claims.table)

/-- A SERVING entry goes back to READY, its hold timer absent (R137, R139). -/
def ClaimEntry.toReady (e : ClaimEntry) : ClaimEntry :=
  if e.state = .serving then { e with state := .ready, hold := none } else e

/-- An entry becomes SERVING; an arrived one starts its hold (R140). `hold` gives HOLD in ticks. -/
def ClaimEntry.toServing (hold : Priority → Nat) (e : ClaimEntry) : ClaimEntry :=
  { e with state := .serving, hold := if e.arrived then some (hold e.priority) else none }

/-- An entry becomes CLEARED at a place in the cleared order (R140, R142). -/
def ClaimEntry.toCleared (place : Nat) (e : ClaimEntry) : ClaimEntry :=
  { e with state := .cleared, hold := none, clearedOrder := some place }

/-! ### Arbitration (R137 to R141) -/

/-- The priorities served in a mode (R137). -/
def served (mode : Mode) (manual : Bool) (p : Priority) : Bool :=
  match mode, p with
  | .running, .emergency => true
  | .running, .transit => !manual
  | _, _ => false

/-- A READY entry whose priority is served. -/
def ClaimEntry.waitsService (sv : Priority → Bool) (e : ClaimEntry) : Bool :=
  e.state == .ready && sv e.priority

/-- The stage that the SERVING entries have in common, none when no entry is SERVING (R141). -/
def servingStage (t : List ClaimEntry) : Option StageId :=
  (t.find? fun e => e.state == .serving).map (·.stage)

/-- Some EMERGENCY entry is SERVING: the service priority is EMERGENCY (R139). -/
def emergencyService (t : List ClaimEntry) : Bool :=
  t.any fun e => e.state == .serving && e.priority == .emergency

/-- With no entry SERVING: the first READY entry in order of R138 becomes SERVING, and every other READY
entry of its stage and priority. -/
def chooseService (hold : Priority → Nat) (sv : Priority → Bool) (t : List ClaimEntry) : List ClaimEntry :=
  let first := match t.find? fun e => e.waitsService sv && e.priority == .emergency with
    | some e => some e
    | none => t.find? fun e => e.waitsService sv
  match first with
  | none => t
  | some f => t.map fun e =>
      if e.waitsService sv && e.priority == f.priority && e.stage == f.stage then e.toServing hold else e

/-- Joining, in table order (R139): a READY entry at the service stage becomes SERVING when it is EMERGENCY
or the service priority is still TRANSIT; `emergency` is the service priority so far (log 19). -/
def joinService (hold : Priority → Nat) (sv : Priority → Bool) (c : StageId) : Bool → List ClaimEntry → List ClaimEntry
  | _, [] => []
  | emergency, e :: t =>
    if e.waitsService sv && e.stage == c && (e.priority == .emergency || !emergency) then
      e.toServing hold :: joinService hold sv c (emergency || e.priority == .emergency) t
    else e :: joinService hold sv c emergency t

/-- One arbitration over the claim table (R137, R138, R139). -/
def arbitrateTable (hold : Priority → Nat) (sv : Priority → Bool) (t : List ClaimEntry) : List ClaimEntry :=
  let t1 := t.map fun e => if e.state == .serving && !sv e.priority then e.toReady else e
  match servingStage t1 with
  | none => chooseService hold sv t1
  | some c =>
    let t2 := joinService hold sv c (emergencyService t1) t1
    if !emergencyService t2 && t2.any (fun e => e.waitsService sv && e.priority == .emergency) then
      chooseService hold sv (t2.map ClaimEntry.toReady)
    else t2

/-- HOLD of a priority in ticks, 0 without a plan (R129). -/
def State.holdTicks (s : State) (p : Priority) : Nat :=
  match s.plan with
  | some pl => second * pl.holdOf p
  | none => 0

/-- Arbitration is run, and a change of the asserted service stage is handed to the sequencer (R137, R141). -/
def State.arbitrate (s : State) : State :=
  let t := arbitrateTable s.holdTicks (served s.ctrl.mode s.manualFlag) s.claims.table
  (s.withClaimTable t).setService (servingStage t)

/-- The place that an entry cleared now takes: after every CLEARED entry, or the place of this moment
(R131, R140; log 20). -/
def Claims.place (c : Claims) : Nat :=
  match c.clearPlace with
  | some p => p
  | none => c.table.foldl (fun m e => max m ((e.clearedOrder.map (· + 1)).getD 0)) 0

/-- The first entry that satisfies `p` becomes CLEARED (R140, R142). -/
def State.clearFirst (s : State) (p : ClaimEntry → Bool) : State :=
  let place := s.claims.place
  { s with claims := { s.claims with
      table := updFirst p (·.toCleared place) s.claims.table, clearPlace := some place } }

/-! ### The table (R132 to R135) -/

/-- LEAD of a route in ticks (R129, R136). -/
def State.leadTicks (s : State) (n : RouteId) : Nat :=
  match s.plan with
  | some p => second * p.lead.nth n
  | none => 0

/-- The newest entry that satisfies `p` removed. -/
def dropLast {α : Type} (p : α → Bool) (t : List α) : List α := (t.reverse.eraseP p).reverse

/-- A TRANSIT entry that is not SERVING, which a full table may lose (R135). -/
def ClaimEntry.displaceable (e : ClaimEntry) : Bool := e.priority == .transit && !(e.state == .serving)

/-- A claim is offered to the table, and the table-full rule decides (R135). -/
def State.offer (s : State) (e : ClaimEntry) : State :=
  let t := s.claims.table
  if t.length < 8 then s.withClaimTable (t ++ [e])
  else if e.priority = .emergency ∧ t.any ClaimEntry.displaceable then
    s.withClaimTable (dropLast ClaimEntry.displaceable t ++ [e])
  else { s with claims := { s.claims with overflow := s.claims.overflow + 1 } }

/-- The entry of an own claim (R134). It carries no withdrawal-miss count: the field stands at 0, and 0 is what the
claims report shows (log 41). -/
def OwnClaim.entry (station : StationId) (stage : StageId) (o : OwnClaim) : ClaimEntry :=
  { origin := station, serial := o.serial, route := o.route, priority := o.priority, stage := stage,
    remaining := 0, arrived := true, life := o.life, hold := none, state := .ready,
    clearedOrder := none, miss := 0 }

/-- An own claim that the table does not hold is offered to it (R134). -/
def State.offerOwn (s : State) (p : Plan) (o : OwnClaim) : State :=
  match (p.routes.nth o.route).stage with
  | none => s
  | some stage =>
    if (s.findClaim p.station o.serial).isSome then s else s.offer (o.entry p.station stage)

/-- The entry a peer's claim would take (R133): none when the route does not pass this station at or past the
origin's distance. -/
def Plan.entryFor (p : Plan) (origin : StationId) (c : ClaimField) : Option ClaimEntry :=
  let n : RouteId := c.route.toFin
  let prio : Priority := if c.emergency then .emergency else .transit
  match p.distOf n p.station, p.distOf n origin, (p.routes.nth n).stage with
  | some own, some at_, some stage =>
    if at_ ≤ own then
      let remaining := second * (own - at_)
      some { origin := origin, serial := c.serial.toFin, route := n, priority := prio, stage := stage,
             remaining := remaining, arrived := remaining == 0, life := second * p.lifeOf prio, hold := none,
             state := if remaining ≤ second * p.lead.nth n then .ready else .waiting,
             clearedOrder := none, miss := 0 }
    else none
  | _, _, _ => none

/-- A peer's claim is offered, unless the table already holds its identity (R133). -/
def State.offerPeer (s : State) (p : Plan) (origin : StationId) (c : ClaimField) : State :=
  match p.entryFor origin c with
  | none => s
  | some e => if (s.findClaim e.origin e.serial).isSome then s else s.offer e

/-! ### Own claims (R130) -/

/-- The first serial from `n` on, wrapping, that no listed own claim holds; `fuel` bounds the search. -/
def freeSerial (own : List OwnClaim) : Nat → Fin 16 → Fin 16
  | 0, n => n
  | k + 1, n => if own.any fun o => o.serial == n then freeSerial own k (n + 1) else n

/-- A claim edge for a route and priority (R130): a new own claim with the next serial, entered in the table,
or a refusal that is counted. -/
def State.claimEdge (s : State) (n : RouteId) (prio : Priority) : State :=
  match s.plan with
  | none => s
  | some p =>
    if s.claims.own.length < 2 ∧ ¬ (s.claims.own.any fun o => o.route == n) then
      let o : OwnClaim := { serial := s.claims.nextSerial, route := n, priority := prio,
                            life := second * p.lifeOf prio, clearedBy := 0 }
      let own := s.claims.own ++ [o]
      let s1 := { s with claims := { s.claims with
        own := own, nextSerial := freeSerial own 16 (s.claims.nextSerial + 1) } }
      (s1.offerOwn p o).arbitrate
    else { s with claims := { s.claims with refused := s.claims.refused + 1 } }

/-- A check-out edge for a route (R142). -/
def State.checkOut (s : State) (n : RouteId) : State :=
  if s.serving n then (s.clearFirst fun e => e.route == n && e.state == .serving).arbitrate
  else
    match s.claims.table.find? fun e => e.route == n && !(e.state == .expired) with
    | none => s
    | some e =>
      if e.state = .cleared then s
      else s.clearFirst fun f => f.route == n && !(f.state == .expired)

/-! ### The claim unit at a frame boundary (R147) -/

/-- The origin is a peer (not this station). -/
def Plan.isPeer (p : Plan) (k : StationId) : Bool := !(k == p.station)

/-- Step 1: entries of origins not PRESENT are removed (R144). -/
def State.originLoss (s : State) (p : Plan) : State :=
  s.withClaimTable (s.claims.table.filter fun e =>
    !(p.isPeer e.origin) || (s.peers.nth e.origin).presence == .present)

/-- The own-claims list of a record carries the serial. -/
def Record.claims? (r : Record) (serial : Fin 16) : Bool := r.claims.any fun c => c.serial.toFin == serial

/-- The withdrawal-miss count of an entry after a good record of its origin; none when the entry is removed
(R144). -/
def State.withdrawalMiss (s : State) (p : Plan) (e : ClaimEntry) : Option ClaimEntry :=
  match s.presentRecord e.origin with
  | none => some e
  | some r =>
    if p.isPeer e.origin && (s.peers.nth e.origin).fresh then
      if r.claims? e.serial then some { e with miss := 0 }
      else if e.miss + 1 < 3 then some { e with miss := e.miss + 1 }
      else none
    else some e

/-- Step 2: withdrawal detection (R144). -/
def State.withdrawalDetection (s : State) (p : Plan) : State :=
  s.withClaimTable (s.claims.table.filterMap (s.withdrawalMiss p))

/-- A PRESENT peer's record reports the own claim CLEARED (R146). -/
def State.reportsCleared (s : State) (p : Plan) (o : OwnClaim) (k : StationId) : Bool :=
  match s.presentRecord k with
  | none => false
  | some r => r.reports.any fun q =>
      q.origin.toFin == p.station && q.serial.toFin == o.serial && q.state == 2

/-- Step 3: peers that report an own claim CLEARED join its cleared-by set (R146). -/
def State.clearedBy (s : State) (p : Plan) : State :=
  { s with claims := { s.claims with
      own := s.claims.own.map fun o =>
        { o with clearedBy := o.clearedBy ||| bitsOf fun k => s.reportsCleared p o k } } }

/-- The origin waits for peer `k` before it withdraws a claim: PRESENT, RUNNING, and on the route at or past
this station (R145). -/
def State.waitsFor (s : State) (p : Plan) (n : RouteId) (k : StationId) : Bool :=
  match s.presentRecord k with
  | none => false
  | some r =>
    r.mode == 4 &&
      match p.distOf n k, p.distOf n p.station with
      | some there, some here => decide (here ≤ there)
      | _, _ => false

/-- The origin withdraws the own claim (R145). -/
def State.withdraws (s : State) (p : Plan) (o : OwnClaim) : Bool :=
  o.life == 0 ||
    ((s.findClaim p.station o.serial).any (fun e => e.state == .cleared) &&
      allFin fun k => !(s.waitsFor p o.route k) || BitSet.has o.clearedBy k)

/-- Step 4: withdrawn own claims leave the list and the table (R145). -/
def State.originWithdrawal (s : State) (p : Plan) : State :=
  let gone := s.claims.own.filter (s.withdraws p)
  { s with claims := { s.claims with
      own := s.claims.own.filter fun o => !(s.withdraws p o)
      table := s.claims.table.filter fun e =>
        !(e.origin == p.station && gone.any fun o => o.serial == e.serial) } }

/-- The claims that PRESENT peers publish, lowest station first (R132, R133). -/
def State.published (s : State) : List (StationId × ClaimField) :=
  (List.finRange 16).flatMap fun k =>
    match s.presentRecord k with
    | none => []
    | some r => r.claims.map fun c => (k, c)

/-- The own claims that the table does not hold. One whose entry a peer's claim displaces at a boundary is offered
again at later boundaries (R135). -/
def State.ownUnlisted (s : State) (p : Plan) : List OwnClaim :=
  s.claims.own.filter fun o => (s.findClaim p.station o.serial).isNone

/-- One claim of the published ones is offered, where its origin is a peer (R133). -/
def State.offerPublished (p : Plan) (s : State) (kc : StationId × ClaimField) : State :=
  if p.isPeer kc.1 then s.offerPeer p kc.1 kc.2 else s

/-- Step 5, its first part: the claims of PRESENT peers are offered (R133). -/
def State.peerEntry (s : State) (p : Plan) : State := s.published.foldl (State.offerPublished p) s

/-- Step 5: claims of PRESENT peers are offered, then own claims still not in the table (R133, R134), own claims
last whatever the own station number (R147; log 40). -/
def State.entry (s : State) (p : Plan) : State :=
  (s.ownUnlisted p).foldl (fun t o => t.offerOwn p o) (s.peerEntry p)

/-- An offer that leads from table `t` to table `u` has entered an entry in READY at the end. -/
def entersReady (t u : List ClaimEntry) : Bool :=
  !(u == t) && u.getLast?.any fun e => e.state == .ready

/-- Of the offers `f` of `l`, made one after another, at least one enters an entry in READY. -/
def readyEntered {α : Type} (f : State → α → State) : State → List α → Bool
  | _, [] => false
  | s, a :: l => entersReady s.claims.table (f s a).claims.table || readyEntered f (f s a) l

/-- Step 5 makes an entry READY, also one whose identity stood READY before and was displaced at this step. No
other step of a boundary makes one READY. -/
def State.entryReady (s : State) (p : Plan) : Bool :=
  readyEntered (State.offerPublished p) s s.published ||
    readyEntered (fun t o => t.offerOwn p o) (s.peerEntry p) (s.ownUnlisted p)

/-- The identities of the SERVING entries. -/
def servingIds (t : List ClaimEntry) : List (StationId × Fin 16) :=
  (t.filter fun e => e.state == .serving).map fun e => (e.origin, e.serial)

/-- A SERVING entry has been removed. -/
def servingLost (before after : List ClaimEntry) : Bool :=
  (servingIds before).any fun i => !(servingIds after).contains i

/-- Steps 1 to 4: removals, and the cleared-by sets (R144 to R146). -/
def State.claimRemovals (s : State) (p : Plan) : State :=
  (((s.originLoss p).withdrawalDetection p).clearedBy p).originWithdrawal p

/-- The claim unit handles a frame boundary: arbitration is run where steps 1 to 5 removed a SERVING entry or made an
entry READY (R147); the lists of step 7 are views of the state (log 29). -/
def State.claimBoundary (s : State) (p : Plan) : State :=
  let s0 := s.claimRemovals p
  let s1 := s0.entry p
  if servingLost s.claims.table s1.claims.table || s0.entryReady p then s1.arbitrate else s1

end Sys2Proof.Machine
end

