-- ==== Sys2Proof/Machine/Modes.lean ====
section
/-! DEFINITION. Machine/Modes.lean: changes of station mode, fault events, and what follows in every block once an event is taken. -/

namespace Sys2Proof.Machine

/-- The mode timer runs in START_FLASH and ALL_RED alone, from 0.0 at each entry (R174). -/
def Mode.timerStart : Mode → Option Nat
  | .startFlash | .allRed => some 0
  | .dark | .loading | .check | .running | .panelFlash | .faultFlash => none

/-- The groups take a change of the force input (R169, R75 to R78). -/
def State.forceChange (s : State) (old new : Mode) : State :=
  if new.force = old.force then s else s.forceAll new.force

/-- The sequencer takes an entry to RUNNING or an exit from it (R85, R98). -/
def State.seqModeChange (s : State) (old new : Mode) : State :=
  if new = .running then s.startChange
  else if old = .running then s.exitRunning
  else s

/-- The mode becomes `m`, and every block takes it at that moment (R169): mode timer (R174), flash entry wait
(R176), groups, sequencer, self-check (R165), claim arbitration (R137), lamps and monitor (R152, R159). -/
def State.enterMode (s : State) (m : Mode) : State :=
  let old := s.ctrl.mode
  let s1 := { s with ctrl := { s.ctrl with mode := m, timer := m.timerStart, wait := false } }
  let s2 := (s1.forceChange old m).seqModeChange old m
  let s3 := if m = .check then s2.selfCheckStart else s2
  s3.arbitrate.lampSync

/-- The flash request is set, or found set at an entry to START_FLASH, ALL_RED or RUNNING (R175, R176). -/
def State.flashSet (s : State) : State :=
  match s.ctrl.mode with
  | .startFlash | .allRed => s.enterMode .panelFlash
  | .running =>
    if s.movingCount = 0 then s.enterMode .panelFlash
    else { s with ctrl := { s.ctrl with wait := true } }
  | .dark | .loading | .check | .panelFlash | .faultFlash => s

/-- Entry to START_FLASH or ALL_RED, where a set flash request is judged (R175). -/
def State.enterJudged (s : State) (m : Mode) : State :=
  let s1 := s.enterMode m
  if s1.flashRequest then s1.flashSet else s1

/-- A reason joins the reason set (R177). -/
def Reasons.add (r : Reasons) : Reason → Reasons
  | .conflict => { r with conflict := true }
  | .redOut => { r with redOut := true }
  | .selfCheck => { r with selfCheck := true }
  | .plan => { r with plan := true }

/-- The reason set is empty. -/
def Reasons.isEmpty (r : Reasons) : Bool := !r.conflict && !r.redOut && !r.selfCheck && !r.plan

/-- The reason joins the set, and is the first fault where the set was empty (R177). -/
def State.addReason (s : State) (r : Reason) : State :=
  { s with ctrl := { s.ctrl with
      reasons := s.ctrl.reasons.add r
      firstFault := if s.ctrl.reasons.isEmpty then some r else s.ctrl.firstFault } }

/-- A fault event (R177): FAULT_FLASH at once from every other mode; in FAULT_FLASH the reason joins the set
alone. -/
def State.faultEvent (s : State) (r : Reason) : State :=
  if s.ctrl.mode = .faultFlash then
    { s with ctrl := { s.ctrl with reasons := s.ctrl.reasons.add r } }
  else (s.addReason r).enterMode .faultFlash

/-! ### What follows an event -/

/-- The flash entry wait is in force in RUNNING and the count of moving groups stands at 0 (R176). -/
def State.waitOver (s : State) : Bool :=
  s.ctrl.wait && s.ctrl.mode == .running && s.movingCount == 0

/-- The count falls to 0 during the flash entry wait: the mode becomes PANEL_FLASH (R176). -/
def State.endWait (s : State) : State :=
  if s.waitOver then (s.enterMode .panelFlash).follow else s

/-- The count has fallen to 0 by the event itself, before the groups and the sequencer act on it: whether the
controller takes that fall first is a free choice (R80, R176; log 15). -/
def State.raceWait (s : State) : State :=
  if s.waitOver then
    let d := s.draw 2
    if d.1 = 0 then d.2.endWait else d.2
  else s

/-- Groups leave RED, and the sequencer commits, completes and selects, one after another at this moment,
until nothing more follows; `fuel` bounds how many (log 17). -/
def State.settle : Nat → State → State
  | 0, s => s
  | k + 1, s =>
    match s.grantStep with
    | some s1 => State.settle k s1.follow
    | none =>
      match s.seqStep with
      | some s1 => State.settle k s1.follow
      | none => s

/-- More than the sixteen grants and the sequencer steps that one moment can hold (log 17). -/
def settleBound : Nat := 64

/-- Everything that follows an event at its own moment: calls and timers (R117, R118), open grants (R66), the
sequencer (R87, R92, R94, R95), the end of the flash entry wait (R176) and the lamps (R62, R152). -/
def State.react (s : State) : State :=
  ((State.settle settleBound s.follow.raceWait).endWait).lampSync

end Sys2Proof.Machine
end

