-- ==== Sys2Proof/Machine/ClaimEvents.lean ====
section
/-! DEFINITION. Machine/ClaimEvents.lean: the commands of the claim unit between frame boundaries: readiness, arrival, hold, lifetime and withdrawal. -/

namespace Sys2Proof.Machine

/-- The entry is READY once its remaining time is at most LEAD (R136). -/
def State.leadReached (s : State) (e : ClaimEntry) : Bool :=
  e.state == .waiting && decide (e.remaining ≤ s.leadTicks e.route)

/-- The entry becomes READY, and arrived with it where its remaining time is 0 (R136). -/
def ClaimEntry.becomeReady (e : ClaimEntry) : ClaimEntry :=
  { e with state := .ready, arrived := e.arrived || e.remaining == 0 }

/-- The remaining time is 0.0 and the entry has not arrived yet (R136). -/
def ClaimEntry.arrivalDue (e : ClaimEntry) : Bool := e.remaining == 0 && !e.arrived

/-- The entry arrives: a SERVING one starts its hold (R140), a WAITING one is READY too (R136). -/
def ClaimEntry.arrive (hold : Priority → Nat) (e : ClaimEntry) : ClaimEntry :=
  { e with
    arrived := true
    state := if e.state = .waiting then .ready else e.state
    hold := if e.state = .serving then some (hold e.priority) else e.hold }

/-- The hold timer of a SERVING entry is at 0.0 (R140). -/
def ClaimEntry.holdDue (e : ClaimEntry) : Bool := e.state == .serving && e.hold == some 0

/-- The lifetime timer is at 0.0 in WAITING, READY or SERVING (R143). -/
def ClaimEntry.lifeDue (e : ClaimEntry) : Bool :=
  e.life == 0 && (e.state == .waiting || e.state == .ready || e.state == .serving)

/-- The entry becomes EXPIRED (R143). -/
def ClaimEntry.expire (e : ClaimEntry) : ClaimEntry := { e with state := .expired, hold := none }

/-! ### Commands -/

/-- CLAIM_READY (R136). -/
def State.claimReady (s : State) (origin : StationId) (serial : Fin 16) : State :=
  match s.findClaim origin serial with
  | none => s
  | some e =>
    if s.leadReached e
    then ((s.updClaim origin serial ClaimEntry.becomeReady).arbitrate).react else s

/-- CLAIM_ARRIVED (R136, R140). -/
def State.claimArrived (s : State) (origin : StationId) (serial : Fin 16) : State :=
  match s.findClaim origin serial with
  | none => s
  | some e =>
    if e.arrivalDue then
      let s1 := s.updClaim origin serial (ClaimEntry.arrive s.holdTicks)
      if e.state = .waiting then s1.arbitrate.react else s1
    else s

/-- HOLD_END (R140). -/
def State.holdEnd (s : State) (origin : StationId) (serial : Fin 16) : State :=
  match s.findClaim origin serial with
  | none => s
  | some e =>
    if e.holdDue then ((s.clearFirst (·.is origin serial)).arbitrate).react else s

/-- CLAIM_LIFETIME_END (R143). -/
def State.claimLifetimeEnd (s : State) (origin : StationId) (serial : Fin 16) : State :=
  match s.findClaim origin serial with
  | none => s
  | some e =>
    if e.lifeDue then
      let s1 := s.updClaim origin serial ClaimEntry.expire
      if e.state = .serving then s1.arbitrate.react else s1
    else s

/-- The entry stands at two withdrawal misses and its origin's new good record lacks the claim (R144). -/
def State.withdrawalDue (s : State) (p : Plan) (e : ClaimEntry) : Bool := (s.withdrawalMiss p e).isNone

/-- WITHDRAWAL_DETECTED (R144): the entry is removed (log 5). -/
def State.withdrawalDetected (s : State) (origin : StationId) (serial : Fin 16) : State :=
  match s.plan, s.findClaim origin serial with
  | some p, some e =>
    if s.withdrawalDue p e then
      let s1 := s.withClaimTable (s.claims.table.eraseP (·.is origin serial))
      if e.state = .serving then s1.arbitrate.react else s1
    else s
  | _, _ => s

/-! ### Meanings -/

/-- WITHDRAWAL_DETECTED (R144; log 5). -/
def execWithdrawalDetected (origin : StationId) (serial : Fin 16) (s : State) : Host.Outcome State Fault Refusal := .next (s.withdrawalDetected origin serial)

/-- CLAIM_READY (R136). -/
def execClaimReady (origin : StationId) (serial : Fin 16) (s : State) : Host.Outcome State Fault Refusal := .next (s.claimReady origin serial)

/-- CLAIM_ARRIVED (R136). -/
def execClaimArrived (origin : StationId) (serial : Fin 16) (s : State) : Host.Outcome State Fault Refusal := .next (s.claimArrived origin serial)

/-- HOLD_END (R140). -/
def execHoldEnd (origin : StationId) (serial : Fin 16) (s : State) : Host.Outcome State Fault Refusal := .next (s.holdEnd origin serial)

/-- CLAIM_LIFETIME_END (R143). -/
def execClaimLifetimeEnd (origin : StationId) (serial : Fin 16) (s : State) : Host.Outcome State Fault Refusal := .next (s.claimLifetimeEnd origin serial)

end Sys2Proof.Machine
end

