-- ==== Sys2Proof/Machine/GroupEvents.lean ====
section
/-! DEFINITION. Machine/GroupEvents.lean: the commands of the signal groups: the grant of an open, and the ends of the group times. -/

namespace Sys2Proof.Machine

/-- A group's state is followed by the lamps and by everything else at the same moment. -/
def State.groupChange (s : State) (g : GroupId) (f : Group → Group) : State := ((s.updGroup g f).lampSync).react

/-- An open is granted (R66). Where a lower-numbered conflicting group is clear to open too, the arbiter lets
that one leave RED instead. -/
def State.openGrant (s : State) (g : GroupId) : State :=
  if s.grantable g then (s.leaveRed g).react
  else if s.clearToOpen g then s.react
  else s

/-- The time in state has reached `t`, given in 0.1 s (R61). -/
def Group.lasted (r : Group) (t : Nat) : Bool := decide (tenth * t ≤ r.time)

/-- PREPARE has lasted tPRE (R67). -/
def State.prepareDue (s : State) (g : GroupId) : Bool :=
  (s.groups.nth g).state == .prepare && (s.groups.nth g).lasted (s.groupPlan g).tPRE

/-- tPRE runs out and the group enters GREEN (R67, R68). -/
def State.prepareEnd (s : State) (g : GroupId) : State :=
  if s.prepareDue g then (s.enterGreen g).react else s

/-- GREEN has lasted tMIN and min-done is still clear (R69). -/
def State.minGreenDue (s : State) (g : GroupId) : Bool :=
  (s.groups.nth g).state == .green && !(s.groups.nth g).minDone &&
    (s.groups.nth g).lasted (s.groupPlan g).tMIN

/-- min-done is set; a group with no means of extending is gapped-out (R72); a held close is granted (R69). -/
def Group.minGreen (gapTimed : Bool) (r : Group) : Group :=
  let r1 := { r with minDone := true, gapped := r.gapped || !gapTimed }
  if r.held = .close then r1.toClearing else r1

/-- tMIN runs out (R69, R72). -/
def State.minGreenEnd (s : State) (g : GroupId) : State :=
  if s.minGreenDue g then s.groupChange g (Group.minGreen (s.gapTimed g)) else s

/-- The gap timer has reached 0.0 with the extension input unoccupied (R71). -/
def State.gapDue (s : State) (g : GroupId) : Bool :=
  (s.groups.nth g).state == .green && s.gapTimed g && !(s.groups.nth g).gapped &&
    (s.groups.nth g).gap == 0 && !s.extended g

/-- The group is gapped-out for the rest of this green (R71). -/
def State.gapOut (s : State) (g : GroupId) : State :=
  if s.gapDue g then s.groupChange g fun r => { r with gapped := true } else s

/-- The max remaining time has reached 0.0 (R73). Max-done is never set before min-done: where tMAX is tMIN and both
times end at one moment, min-done is set first. -/
def State.maxDue (s : State) (g : GroupId) : Bool :=
  (s.groups.nth g).state == .green && (s.groups.nth g).maxRunning && !(s.groups.nth g).maxDone &&
    (s.groups.nth g).maxLeft == 0 && (s.groups.nth g).minDone

/-- max-done is set for the rest of this green (R73). -/
def State.maxDoneEvent (s : State) (g : GroupId) : State :=
  if s.maxDue g then s.groupChange g fun r => { r with maxDone := true } else s

/-- CLEARING has lasted tCLR (R74). -/
def State.clearingDue (s : State) (g : GroupId) : Bool :=
  (s.groups.nth g).state == .clearing && (s.groups.nth g).lasted (s.groupPlan g).tCLR

/-- tCLR runs out and the group enters RED, open pending if it holds OPEN (R74). -/
def State.clearingEnd (s : State) (g : GroupId) : State :=
  if s.clearingDue g then s.groupChange g Group.toRed else s

/-! ### Meanings -/

/-- OPEN_GRANT (R66). -/
def execOpenGrant (g : GroupId) (s : State) : Host.Outcome State Fault Refusal := .next (s.openGrant g)

/-- PREPARE_END (R67). -/
def execPrepareEnd (g : GroupId) (s : State) : Host.Outcome State Fault Refusal := .next (s.prepareEnd g)

/-- MIN_GREEN_END (R69). -/
def execMinGreenEnd (g : GroupId) (s : State) : Host.Outcome State Fault Refusal := .next (s.minGreenEnd g)

/-- GAP_OUT (R71). -/
def execGapOut (g : GroupId) (s : State) : Host.Outcome State Fault Refusal := .next (s.gapOut g)

/-- MAX_DONE (R73). -/
def execMaxDone (g : GroupId) (s : State) : Host.Outcome State Fault Refusal := .next (s.maxDoneEvent g)

/-- CLEARING_END (R74). -/
def execClearingEnd (g : GroupId) (s : State) : Host.Outcome State Fault Refusal := .next (s.clearingEnd g)

end Sys2Proof.Machine
end

