-- ==== Sys2Proof/Machine/Records.lean ====
section
/-! DEFINITION. Machine/Records.lean: CRC-16, the layout of the station record in both directions, the staged record, and the judging of received characters. -/

namespace Sys2Proof.Machine

/-! ### CRC-16 (R16) -/

/-- One bit fed to the remainder register. -/
def crcBit (reg : Half) (b : Bool) : Half :=
  let out := Bool.xor b (reg.getLsbD 0)
  if out then (reg >>> 1) ^^^ 33800#16 else reg >>> 1

/-- One byte, least significant bit first. -/
def crcByte (reg : Half) (b : Byte) : Half :=
  (List.range 8).foldl (fun r i => crcBit r (b.getLsbD i)) reg

/-- The CRC-16 of a sequence of bytes. -/
def crc16 (bytes : List Byte) : Half := bytes.foldl crcByte 65535#16

/-- The low and high byte of a 16-bit value, low byte first (00 0.5). -/
def halfBytes (h : Half) : List Byte := [h.extractLsb' 0 8, h.extractLsb' 8 8]

/-- A 24-bit flag set as three bytes, lowest first (R26). -/
def tripleBytes (t : BitVec 24) : List Byte := [t.extractLsb' 0 8, t.extractLsb' 8 8, t.extractLsb' 16 8]

/-- The bytes with their CRC-16 appended, low byte first (R16). -/
def withCrc (bytes : List Byte) : List Byte := bytes ++ halfBytes (crc16 bytes)

/-! ### Layout (R26) -/

/-- An own claim as its character. -/
def ClaimField.char (c : ClaimField) : Byte := BitVec.ofBool c.emergency ++ c.route ++ c.serial

/-- A service report as its two characters. -/
def ReportField.chars (r : ReportField) : List Byte := [r.serial ++ r.origin, r.state]

/-- The fixed part of fourteen characters. -/
def Record.fixedPart (r : Record) : List Byte :=
  [r.format ++ r.station] ++ halfBytes r.fingerprint ++
  [BitVec.ofBool r.manual ++ BitVec.ofBool r.clock ++ r.step ++ BitVec.ofBool r.checkPassed ++ r.mode,
   BitVec.ofNat 2 r.reports.length ++ BitVec.ofNat 2 r.claims.length ++ r.requested ++ r.active,
   r.target ++ r.current] ++
  halfBytes r.position ++ tripleBytes r.occupancy ++ tripleBytes r.faults

/-- The characters of a record, its CRC-16 included (R22, R26). -/
def Record.encode (r : Record) : List Byte :=
  withCrc (r.fixedPart ++ r.claims.map ClaimField.char ++ r.reports.flatMap ReportField.chars)

/-- An own claim from its character. -/
def ClaimField.ofChar (b : Byte) : ClaimField :=
  { serial := b.extractLsb' 0 4, route := b.extractLsb' 4 3, emergency := b.getLsbD 7 }

/-- The service reports from their characters, two each. -/
def reportsOf : List Byte → List ReportField
  | a :: b :: l => { origin := a.extractLsb' 0 4, serial := a.extractLsb' 4 4, state := b } :: reportsOf l
  | _ => []

/-- The length that the two count fields of the fifth character give; none for an own-claim count of 3
(R14). -/
def recordLength (c4 : Byte) : Option Nat :=
  let n := (c4.extractLsb' 4 2).toNat
  let m := (c4.extractLsb' 6 2).toNat
  if n = 3 then none else some (16 + n + 2 * m)

/-- The fields of a record from its characters (R27), where its length is the one its counts give. -/
def Record.decode (l : List Byte) : Option Record :=
  match l with
  | c0 :: f0 :: f1 :: c3 :: c4 :: c5 :: p0 :: p1 :: o0 :: o1 :: o2 :: e0 :: e1 :: e2 :: rest =>
    let n := (c4.extractLsb' 4 2).toNat
    let m := (c4.extractLsb' 6 2).toNat
    if recordLength c4 = some l.length then
      some
        { station := c0.extractLsb' 0 4, format := c0.extractLsb' 4 4
          fingerprint := f1 ++ f0
          mode := c3.extractLsb' 0 3, checkPassed := c3.getLsbD 3, step := c3.extractLsb' 4 2
          clock := c3.getLsbD 6, manual := c3.getLsbD 7
          active := c4.extractLsb' 0 2, requested := c4.extractLsb' 2 2
          current := c5.extractLsb' 0 4, target := c5.extractLsb' 4 4
          position := p1 ++ p0
          occupancy := o2 ++ o1 ++ o0, faults := e2 ++ e1 ++ e0
          claims := (rest.take n).map ClaimField.ofChar
          reports := reportsOf ((rest.drop n).take (2 * m)) }
    else none
  | _ => none

/-- The last two characters carry the CRC-16 of all before them (R15). -/
def crcMatches (l : List Byte) : Bool :=
  l.drop (l.length - 2) == halfBytes (crc16 (l.take (l.length - 2)))

/-- A well-framed character list is a good record in a slot (R15): its length and CRC-16 are right and it
carries the slot's number. -/
def goodRecord (slot : StationId) (l : List Byte) : Option Record :=
  match Record.decode l with
  | none => none
  | some r => if crcMatches l && r.station.toFin == slot then some r else none

/-- Two of a list agree under `f`. -/
def repeats {α : Type} (f : α → α → Bool) : List α → Bool
  | [] => false
  | a :: l => l.any (f a) || repeats f l

/-- The content of a record is in range (R27). -/
def Record.inRange (r : Record) : Bool :=
  decide (1 ≤ r.mode.toNat) && decide (r.mode.toNat ≤ 6) && decide (r.step.toNat ≤ 2) &&
  decide (r.current.toNat ≤ 12) && decide (r.target.toNat ≤ 12) &&
  decide (r.position.toNat ≤ 2399) && (r.clock || r.position == 0) &&
  !repeats (fun a b => a.route == b.route || a.serial == b.serial) r.claims &&
  r.reports.all fun q => q.state == 1 || q.state == 2

/-! ### Reception (R14) -/

/-- Each start edge after the first follows the previous stop bit within tICG (R14). -/
def gapsOk : List RxEdge → Bool
  | a :: b :: l => decide (b.pos ≤ a.pos + 10 + tICG) && gapsOk (b :: l)
  | _ => true

/-- The last stop bit ends before the slot ends (R14). -/
def endsInSlot (l : List RxEdge) : Bool := l.all fun e => decide (e.pos + 10 < tSL)

/-- The characters from these accepted start edges are well framed (R14): stop bits recessive, gaps within tICG,
ended before the slot ends. That no further start edge follows the record is its length being the one its counts
give (`goodRecord`). -/
def wellFramed (l : List RxEdge) : Bool := l.all stopRecessive && gapsOk l && endsInSlot l

/-- The outcome of a slot from the candidate start edges taken in it (R2, R14, R15): no accepted one within tSS is
SILENT, a well-framed good record GOOD, everything else BAD. -/
def slotOutcome (slot : StationId) (edges : List RxEdge) : Outcome :=
  let l := edges.filter accepted
  match l with
  | [] => .silent
  | e :: _ =>
    if tSS < e.pos then .silent
    else if wellFramed l then
      match goodRecord slot (l.map rxValue) with
      | some r => .good r
      | none => .bad
    else .bad

/-! ### The staged record (R22 to R25) -/

/-- A number with 0 for none, as stages are carried (R26). -/
def stageCode (t : Option StageId) : Nat :=
  match t with
  | some s => s.val + 1
  | none => 0

/-- The code of a step state (R26). -/
def StepState.code : StepState → Nat
  | .isolated => 0
  | .seeking => 1
  | .inStep => 2

/-- The fault flag and occupancy of D1 to D24 as they stand (R125). -/
def State.latchNow (s : State) : Latched :=
  { occupancy := bitsOf fun d => s.occupied d, faults := bitsOf fun d => s.faulted d }

/-- An own claim in the record (R25, R26). -/
def OwnClaim.field (o : OwnClaim) : ClaimField :=
  { serial := BitVec.ofFin o.serial, route := BitVec.ofFin o.route, emergency := o.priority == .emergency }

/-- CLEARED entries, the most recently cleared first, equal places in table order (R25). -/
def insertCleared (e : ClaimEntry) : List ClaimEntry → List ClaimEntry
  | [] => [e]
  | f :: l => if f.clearedOrder.getD 0 ≤ e.clearedOrder.getD 0 then e :: f :: l else f :: insertCleared e l

/-- A claim entry in the record (R26). -/
def ClaimEntry.report (e : ClaimEntry) : ReportField :=
  { origin := BitVec.ofFin e.origin, serial := BitVec.ofFin e.serial,
    state := if e.state = .serving then 1 else 2 }

/-- The service reports (R25): SERVING then CLEARED entries of other origins, at most three. -/
def reportList (own : StationId) (t : List ClaimEntry) : List ReportField :=
  let others := t.filter fun e => !(e.origin == own)
  let serving := others.filter fun e => e.state == .serving
  let cleared := (others.filter fun e => e.state == .cleared).foldr insertCleared []
  ((serving ++ cleared).take 3).map ClaimEntry.report

/-- The staged record, each field as its owner gives it now (R22, R23); the latched flags as the last
boundary left them. -/
def State.staged (s : State) (p : Plan) : Record :=
  { station := BitVec.ofFin p.station, format := 1, fingerprint := p.fingerprint
    mode := BitVec.ofNat 3 s.ctrl.mode.code, checkPassed := s.lamps.checkPassed
    step := BitVec.ofNat 2 s.seq.step.code, clock := s.cycle.set, manual := s.manualFlag
    active := BitVec.ofFin s.cycle.active, requested := BitVec.ofFin s.cycle.requested
    current := BitVec.ofNat 4 (stageCode s.seq.st.current)
    target := BitVec.ofNat 4 (stageCode s.seq.st.shownTarget)
    position := BitVec.ofNat 16 s.cycle.position
    occupancy := s.latched.occupancy, faults := s.latched.faults
    claims := s.claims.own.map OwnClaim.field, reports := reportList p.station s.claims.table }

/-- The transmit snapshot of a boundary (R24): empty until the identity fields are written. -/
def State.snapshotNow (s : State) : List Byte :=
  match s.plan with
  | none => []
  | some p => (s.staged p).encode

end Sys2Proof.Machine
end

