-- ==== Sys2Proof/Machine/Diag.lean ====
section
/-! DEFINITION. Machine/Diag.lean: the diagnostic line: the reports, their frame, and the port's states (R195 to R197). -/

namespace Sys2Proof.Machine

/-! ### Coding (R196) -/

/-- A flag as one character. -/
def flagChar (b : Bool) : Byte := if b then 1 else 0

/-- A number as one character. -/
def numChar (n : Nat) : Byte := BitVec.ofNat 8 n

/-- A number as two characters, low byte first. -/
def numChars (n : Nat) : List Byte := halfBytes (BitVec.ofNat 16 n)

/-- Flags in one character, the first in the lowest bit (log 22). -/
def flagsChar (l : List Bool) : Byte := numChar (l.foldr (fun b n => 2 * n + b.toNat) 0)

/-- A time that counts down, in 0.1 s: 0.0 only once it has run out (log 21). -/
def downTime (ticks : Nat) : Nat := (ticks + (tenth - 1)) / tenth

/-- A timer that may be absent: 65 535 then. -/
def timerChars (t : Option Nat) : List Byte :=
  match t with
  | none => numChars 65535
  | some n => numChars (downTime n)

def Reason.code : Reason → Nat
  | .conflict => 0
  | .redOut => 1
  | .selfCheck => 2
  | .plan => 3

def LineState.code : LineState → Nat
  | .off => 0
  | .listen => 1
  | .active => 2
  | .silentFault => 3
  | .stuck => 4

def SilentKind.code : SilentKind → Nat
  | .none => 0
  | .timed => 1
  | .permanent => 2

def GState.code : GState → Nat
  | .red => 0
  | .prepare => 1
  | .green => 2
  | .clearing => 3
  | .flashing => 4
  | .dark => 5

def Presence.code : Presence → Nat
  | .absent => 0
  | .heard => 1
  | .present => 2
  | .lost => 3
  | .foreign => 4
  | .unfit => 5
  | .self => 6

def Priority.code : Priority → Nat
  | .emergency => 0
  | .transit => 1

def ClaimState.code : ClaimState → Nat
  | .waiting => 0
  | .ready => 1
  | .serving => 2
  | .cleared => 3
  | .expired => 4

def Command.code : Command → Nat
  | .on => 0
  | .off => 1
  | .flash => 2

def SelfCheck.code : SelfCheck → Nat
  | .notRun => 0
  | .running => 1
  | .passed => 2
  | .failed => 3

/-! ### The bodies (R197) -/

/-- The station report (R56, R107, R181). -/
def State.stationBody (s : State) : List Byte :=
  let r := s.ctrl.reasons
  [numChar s.ctrl.mode.code, flagsChar [r.conflict, r.redOut, r.selfCheck, r.plan],
   match s.ctrl.firstFault with
   | none => 255
   | some f => numChar f.code,
   numChar s.ctrl.planFault, flagChar s.ctrl.wait, numChar s.seq.step.code, numChar s.cycle.active.val,
   numChar s.cycle.requested.val, flagChar s.cycle.set] ++
  numChars s.cycle.position ++ numChars s.localPosition ++ numChars s.cycle.unsetWait ++
  [match s.cycle.divCandidate with
   | none => 255
   | some q => numChar q.val,
   numChar s.cycle.divCount, numChar (stageCode s.seq.st.current), numChar (stageCode s.seq.st.shownTarget),
   flagChar s.manualFlag, numChar s.line.st.code, numChar s.line.sfKind.code] ++
  numChars s.line.sfHold

/-- The state a group is reported in: an UNUSED group as DARK (R81). -/
def State.reportedState (s : State) (g : GroupId) : GState :=
  if s.used g then (s.groups.nth g).state else .dark

/-- The remaining time of a group, in 0.1 s (R81). -/
def State.groupRemaining (s : State) (g : GroupId) : Nat :=
  let r := s.groups.nth g
  let p := s.groupPlan g
  match s.reportedState g with
  | .prepare => downTime (tenth * p.tPRE - r.time)
  | .green =>
    if r.minDone then if r.maxRunning then downTime r.maxLeft else 0
    else downTime (tenth * p.tMIN - r.time)
  | .clearing => downTime (tenth * p.tCLR - r.time)
  | .red | .flashing | .dark => 0

/-- The groups report (R81). -/
def State.groupsBody (s : State) : List Byte :=
  (List.finRange 16).flatMap fun g => numChar (s.reportedState g).code :: numChars (s.groupRemaining g)

/-- A local detector's state code: unused, NORMAL, FAULT_STUCK, FAULT_SILENT (R127). -/
def State.detectorCode (s : State) (d : LocalId) : Nat :=
  if (s.localDef d).isNone then 0
  else match (s.dets.nth d).fault with
    | .normal => 1
    | .stuck => 2
    | .silent => 3

/-- A remote detector's two characters: its state, unused, NORMAL or REMOTE_LOST, and its occupancy (R127). -/
def State.remoteChars (s : State) (r : RemoteId) : List Byte :=
  match s.remotes.nth r with
  | .unused => [0, 0]
  | .normal o => [1, flagChar o]
  | .lost => [4, 0]

/-- The detectors report (R127). -/
def State.detectorsBody (s : State) : List Byte :=
  (List.finRange 24).flatMap (fun d => [numChar (s.detectorCode d), flagChar (s.occupied d)]) ++
  (List.finRange 16).flatMap s.remoteChars ++
  (List.finRange 16).flatMap fun g =>
    flagChar (s.lockingCall g) :: tripleBytes (s.callers.nth g) ++ [flagChar (s.hasCall g)]

/-- The peers report (R38). -/
def State.peersBody (s : State) : List Byte :=
  (List.finRange 16).flatMap fun k =>
    let e := s.peers.nth k
    [numChar e.presence.code, numChar e.miss, numChar e.badCount]

/-- One claim table entry in the claims report. -/
def ClaimEntry.body (e : ClaimEntry) : List Byte :=
  [numChar e.origin.val, numChar e.serial.val, numChar (e.route.val + 1), numChar e.priority.code,
   numChar (e.stage.val + 1), numChar e.state.code] ++
  numChars (downTime e.remaining) ++ [flagChar e.arrived] ++ numChars (downTime e.life) ++
  timerChars e.hold ++ [numChar e.miss]

/-- One own claim in the claims report. -/
def OwnClaim.body (o : OwnClaim) : List Byte :=
  [numChar o.serial.val, numChar (o.route.val + 1), numChar o.priority.code] ++
  numChars (downTime o.life) ++ halfBytes o.clearedBy

/-- The claims report (R149). -/
def State.claimsBody (s : State) : List Byte :=
  numChar s.claims.table.length :: s.claims.table.flatMap ClaimEntry.body ++
  numChar s.claims.own.length :: s.claims.own.flatMap OwnClaim.body ++
  [numChar s.claims.nextSerial.val, numChar (stageCode s.seq.service)]

/-- The conflict latch in the faults report: cause kind and its two groups. -/
def conflictChars : Option ConflictCause → List Byte
  | none => [0, 0, 0]
  | some (.conflict a b) => [1, numChar (a.val + 1), numChar (b.val + 1)]
  | some (.greenInFlash g) => [2, numChar (g.val + 1), 0]

/-- One channel in the faults report. -/
def Chan.body (c : Chan) : List Byte :=
  [numChar c.command.code, flagChar c.sensed, flagsChar [c.unLive, c.loLive, c.unSticky, c.loSticky]]

/-- The faults report (R167). -/
def State.faultsBody (s : State) : List Byte :=
  conflictChars s.lamps.conflict ++
  [flagChar s.lamps.redOut.isSome, match s.lamps.redOut with
    | none => 0
    | some g => numChar (g.val + 1)] ++
  (List.finRange 56).flatMap (fun c => (s.lamps.channels.nth c).body) ++
  [numChar s.lamps.selfCheck.code,
   match s.lamps.firstFailing with
   | none => 0
   | some c => numChar (c.val + 1),
   flagChar s.lamps.checkPassed]

/-- The counts report (R127, R149). -/
def State.countsBody (s : State) : List Byte :=
  (List.finRange 24).flatMap (fun d => halfBytes (s.dets.nth d).count ++ halfBytes (s.dets.nth d).capture) ++
  halfBytes s.claims.overflow ++ halfBytes s.claims.refused ++ halfBytes s.line.slips ++
  halfBytes s.line.malformed ++ halfBytes s.cycle.lateMarks ++ halfBytes s.line.collisions

/-! ### The frame of a reply (R196) -/

/-- The sum of characters, modulo 256. -/
def sumChar (l : List Byte) : Byte := l.foldl (· + ·) 0

/-- A reply with a report code and a body. -/
def replyOf (code : Byte) (body : List Byte) : List Byte :=
  let front := [126, code] ++ numChars body.length ++ body
  front ++ [sumChar front]

/-! ### The port (R195) -/

/-- The receiver takes a character as a query: the device is out of start-up reset and the port is idle. -/
def State.portIdle (s : State) : Bool := !(s.ctrl.mode == .dark) && s.diag.isNone

/-- A query is taken: its values are latched and the port becomes busy. -/
def State.reply (s : State) (code : Byte) (body : List Byte) : State :=
  if s.portIdle then { s with diag := some { chars := replyOf code body, elapsed := 0 } } else s

/-- The fewest ticks in which a reply of `n` characters can end: at once, at 19 296 bit/s. -/
def replyLeast (n : Nat) : Nat := 625000 * n / 19296

/-- The most ticks that a reply of `n` characters can take: tDR, then 19 104 bit/s. -/
def replyMost (n : Nat) : Nat := tDR + 625000 * n / 19104 + 1

/-- The reply under way can have ended by now (R195). -/
def State.replyOver (s : State) : Bool := s.diag.any fun r => decide (replyLeast r.chars.length ≤ r.elapsed)

/-- The reply under way ends now: its time within the limits is free (log 28). -/
def State.replyDue (s : State) : Bool :=
  s.replyOver && s.diag.any fun r =>
    decide (min (replyLeast r.chars.length + Config.replyTime s.freeCount) (replyMost r.chars.length) ≤ r.elapsed)

/-- DIAG_REPLY_END (R195): the port becomes idle. -/
def State.diagReplyEnd (s : State) : State := if s.replyOver then { s with diag := none } else s

/-! ### The receiver (R195) -/

/-- The report that a character taken as a query picks, as its code and its body: S, G, D, P, C, F and N by their
values, and the error reply, whose body is the character, for any other. -/
def State.reportOf (s : State) (char : Byte) : Byte × List Byte :=
  if char = 83 then (83, s.stationBody)
  else if char = 71 then (71, s.groupsBody)
  else if char = 68 then (68, s.detectorsBody)
  else if char = 80 then (80, s.peersBody)
  else if char = 67 then (67, s.claimsBody)
  else if char = 70 then (70, s.faultsBody)
  else if char = 78 then (78, s.countsBody)
  else (69, [char])

/-- The stop bit of a character ends on the receive line: noise and a framing error are discarded, and any other
character is taken as a query where the port is idle and ignored where it is not. -/
def State.receive (s : State) (levels : BitVec 10) : State :=
  match rxCharacter levels with
  | .noise | .framingError => s
  | .char c => s.reply (s.reportOf c).1 (s.reportOf c).2

/-- The levels of a row of the table are received where they spell a character of that row (log 2, 31). -/
def State.receiveRow (s : State) (row : RxChar → Bool) (levels : BitVec 10) : State :=
  if row (rxCharacter levels) then s.receive levels else s

/-- A character that is none of the seven queries. -/
def RxChar.isOther : RxChar → Bool
  | .char c => !queryChars.contains c
  | .noise | .framingError => false

/-! ### Meanings -/

/-- STATION_QUERY (R197): the query S. -/
def execStationQuery (s : State) (levels : BitVec 10 := 678) : Host.Outcome State Fault Refusal :=
  .next (s.receiveRow (· == .char 83) levels)

/-- GROUPS_QUERY (R81): the query G. -/
def execGroupsQuery (s : State) (levels : BitVec 10 := 654) : Host.Outcome State Fault Refusal :=
  .next (s.receiveRow (· == .char 71) levels)

/-- DETECTORS_QUERY (R127): the query D. -/
def execDetectorsQuery (s : State) (levels : BitVec 10 := 648) : Host.Outcome State Fault Refusal :=
  .next (s.receiveRow (· == .char 68) levels)

/-- PEERS_QUERY (R38): the query P. -/
def execPeersQuery (s : State) (levels : BitVec 10 := 672) : Host.Outcome State Fault Refusal :=
  .next (s.receiveRow (· == .char 80) levels)

/-- CLAIMS_QUERY (R149): the query C. -/
def execClaimsQuery (s : State) (levels : BitVec 10 := 646) : Host.Outcome State Fault Refusal :=
  .next (s.receiveRow (· == .char 67) levels)

/-- FAULTS_QUERY (R167): the query F. -/
def execFaultsQuery (s : State) (levels : BitVec 10 := 652) : Host.Outcome State Fault Refusal :=
  .next (s.receiveRow (· == .char 70) levels)

/-- COUNTS_QUERY (R197): the query N. -/
def execCountsQuery (s : State) (levels : BitVec 10 := 668) : Host.Outcome State Fault Refusal :=
  .next (s.receiveRow (· == .char 78) levels)

/-- ERROR_REPLY (R195): a character that is no query is answered with itself. -/
def execErrorReply (levels : BitVec 10) (s : State) : Host.Outcome State Fault Refusal :=
  .next (s.receiveRow RxChar.isOther levels)

/-- DIAG_FRAMING_ERROR (R195): the character is discarded, no reply is sent, and the port does not become busy. -/
def execDiagFramingError (s : State) (levels : BitVec 10 := 0) : Host.Outcome State Fault Refusal :=
  .next (s.receiveRow (· == .framingError) levels)

/-- DIAG_CHARACTER_IGNORED (R195): a character that ends while the port is busy is neither queued nor answered,
and does not lengthen the reply in progress. -/
def execDiagCharacterIgnored (levels : BitVec 10) (s : State) : Host.Outcome State Fault Refusal :=
  .next (s.receiveRow (fun _ => s.diag.isSome) levels)

/-- DIAG_REPLY_END (R195). -/
def execDiagReplyEnd (s : State) : Host.Outcome State Fault Refusal := .next (s.diagReplyEnd)

end Sys2Proof.Machine
end

