-- ==== Sys2Proof/Machine/LampEvents.lean ====
section
/-! DEFINITION. Machine/LampEvents.lean: the commands of lamp switching and the monitor: senses, settling, the checks, the latches and the self-check. -/

namespace Sys2Proof.Machine

/-! ### The self-check (R165) -/

/-- The self-check fails on channel `c` (R165). -/
def State.selfCheckFail (s : State) (c : ChanId) : State :=
  State.react (State.faultEvent { s with lamps := { s.lamps with
    selfCheck := .failed, firstFailing := some c, selfJudging := false } } .selfCheck)

/-- The self-check watches the senses now (R165). -/
def State.selfWatching (s : State) : Bool := s.lamps.selfCheck == .running && s.lamps.selfJudging

/-- The channels sensed on. -/
def State.channelsOn (s : State) : List ChanId := (List.finRange 56).filter fun c => s.sensed c

/-- The first tSET of the self-check is over (R165). -/
def State.selfSettleDue (s : State) : Bool :=
  s.lamps.selfCheck == .running && !s.lamps.selfJudging && decide (tSET ≤ s.lamps.selfTime)

/-- SELF_CHECK_SETTLE_END (R165): from now on the self-check judges; of several channels that are on, the one
taken first is a free choice (log 16). -/
def State.selfCheckSettleEnd (s : State) : State :=
  if s.selfSettleDue then
    let s1 := { s with lamps := { s.lamps with selfJudging := true } }
    match s.channelsOn with
    | [] => s1
    | c :: l =>
      let d := s1.draw (l.length + 1)
      d.2.selfCheckFail ((c :: l).getD d.1 c)
  else s

/-- The self-check has run for tCK with no channel sensed on (R165). -/
def State.selfPassDue (s : State) : Bool :=
  s.ctrl.mode == .check && s.selfWatching && decide (tCK ≤ s.lamps.selfTime) && s.channelsOn.isEmpty

/-- SELF_CHECK_PASS (R165, R173, R175). -/
def State.selfCheckPass (s : State) : State :=
  if s.selfPassDue then
    State.react (State.enterJudged { s with lamps := { s.lamps with
      selfCheck := .passed, selfJudging := false, checkPassed := true } } .startFlash)
  else s

/-! ### Senses and settling (R154, R155) -/

/-- A channel that is judged and agrees returns its timing, and the checks follow the senses (R156 to R160). -/
def State.senseSync (s : State) (c : ChanId) : State :=
  (s.updChan c (Chan.agree s.lamps.phase)).monitorSync

/-- SENSE_CHANGE (R154): sensing begins at the release of start-up reset. -/
def State.senseChange (s : State) (c : ChanId) (level : Bool) (held : Nat) : State :=
  let s1 := s.sampleSense c level held
  if s.ctrl.mode = .dark then s.updChan c fun ch => { ch with sense := { ch.sense with raw := level } }
  else
    let s2 := s1.senseSync c
    if !(s.sensed c) && s2.sensed c && s2.selfWatching then s2.selfCheckFail c else s2

/-- A settle time has run tSET (R155). -/
def Chan.settleDue (ch : Chan) : Bool := ch.settle.any fun t => decide (tSET ≤ t)

/-- SETTLE_END (R155): the channel is judged again. -/
def State.settleEnd (s : State) (c : ChanId) : State :=
  if (s.lamps.channels.nth c).settleDue
  then (s.updChan c fun ch => { ch with settle := none }).senseSync c else s

/-! ### The latches (R156 to R158, R162) -/

/-- The conflict latch is set with its cause and a fault event, where it is clear (R162). -/
def State.latchConflict (s : State) (c : ConflictCause) : State :=
  match s.lamps.conflict with
  | some _ => s
  | none => State.faultEvent { s with lamps := { s.lamps with conflict := some c } } .conflict

/-- The red-out latch is set with its cause and a fault event, where it is clear (R162). -/
def State.latchRedOut (s : State) (g : GroupId) : State :=
  match s.lamps.redOut with
  | some _ => s
  | none => State.faultEvent { s with lamps := { s.lamps with redOut := some g } } .redOut

/-- The pair has been lit together for tCF (R156). -/
def State.conflictDue (s : State) (a b : GroupId) : Bool :=
  decide (a < b) && s.pairLit a b && decide (tCF ≤ (s.lamps.pairs.nth a).nth b)

/-- The green has been sensed on for tGF in a flash mode (R157). -/
def State.greenDue (s : State) (g : GroupId) : Bool := s.greenLit g && decide (tGF ≤ s.lamps.greens.nth g)

/-- The group's red has been out for tRO (R158). -/
def State.redDue (s : State) (g : GroupId) : Bool := s.redDark g && decide (tRO ≤ s.lamps.reds.nth g)

/-- The pairs that have been lit together for tCF. -/
def State.duePairs (s : State) : List (GroupId × GroupId) :=
  (List.finRange 16).flatMap fun a => ((List.finRange 16).filter fun b => s.conflictDue a b).map fun b => (a, b)

/-- The groups whose red has been out for tRO. -/
def State.dueReds (s : State) : List GroupId := (List.finRange 16).filter fun g => s.redDue g

/-- A red that has been out for tRO at the moment of a conflict acts on its own latch and sends its own event, the
second of the two (R162, R177); which of several writes the record is free (log 16). -/
def State.alsoRedOut (reds : List GroupId) (s : State) : State :=
  match reds with
  | [] => s
  | g :: l => let d := s.draw (l.length + 1); d.2.latchRedOut ((g :: l).getD d.1 g)

/-- A pair that has been lit for tCF at the moment of a red-out, likewise. -/
def State.alsoConflict (pairs : List (GroupId × GroupId)) (s : State) : State :=
  match pairs with
  | [] => s
  | p :: l =>
    let d := s.draw (l.length + 1)
    let q := (p :: l).getD d.1 p
    d.2.latchConflict (.conflict q.1 q.2)

/-- CONFLICT (R156, R162). -/
def State.conflictEvent (s : State) (a b : GroupId) : State :=
  if s.conflictDue a b && s.lamps.conflict.isNone
  then ((s.latchConflict (.conflict a b)).alsoRedOut s.dueReds).react else s

/-- GREEN_IN_FLASH (R157, R162). -/
def State.greenInFlash (s : State) (g : GroupId) : State :=
  if s.greenDue g && s.lamps.conflict.isNone then (s.latchConflict (.greenInFlash g)).react else s

/-- RED_OUT (R158, R162). -/
def State.redOutEvent (s : State) (g : GroupId) : State :=
  if s.redDue g && s.lamps.redOut.isNone then ((s.latchRedOut g).alsoConflict s.duePairs).react else s

/-! ### The channel checks (R160, R161) -/

/-- The UNCOMMANDED_ON timing runs (R160). -/
def Chan.unRuns (phase : Bool) (ch : Chan) : Bool := ch.judged && !(ch.command.expected phase) && ch.sensed

/-- The LAMP_OUT timing runs (R160). -/
def Chan.loRuns (phase : Bool) (ch : Chan) : Bool := ch.judged && ch.command.expected phase && !ch.sensed

/-- UNCOMMANDED_ON has reached tUO with its live flag still clear (R160). -/
def Chan.unDue (ch : Chan) : Bool := decide (tUO ≤ ch.unTime) && !ch.unLive

/-- LAMP_OUT has reached tLO with its live flag still clear (R160). -/
def Chan.loDue (ch : Chan) : Bool := decide (tLO ≤ ch.loTime) && !ch.loLive

/-- UNCOMMANDED_ON (R160, R161): live and sticky flag are set. -/
def State.uncommandedOn (s : State) (c : ChanId) : State :=
  if (s.lamps.channels.nth c).unDue
  then s.updChan c fun ch => { ch with unLive := true, unSticky := true } else s

/-- LAMP_OUT (R160, R161): live and sticky flag are set. -/
def State.lampOut (s : State) (c : ChanId) : State :=
  if (s.lamps.channels.nth c).loDue
  then s.updChan c fun ch => { ch with loLive := true, loSticky := true } else s

/-! ### The flash generator (R153) -/

/-- FLASH_PHASE_CHANGE alone: the fifth boundary of the generator (R153; log 5). -/
def State.flashPhaseChange (s : State) : State :=
  if s.lamps.flashCount + 1 = flashHalf then s.flashPhase else s

/-! ### Meanings -/

/-- FLASH_PHASE_CHANGE (R153; log 5). -/
def execFlashPhaseChange (s : State) : Host.Outcome State Fault Refusal := .next (s.flashPhaseChange)

/-- SENSE_CHANGE (R154). -/
def execSenseChange (ch : ChanId) (level : Bool) (held : Nat) (s : State) : Host.Outcome State Fault Refusal := .next (s.senseChange ch level held)

/-- SETTLE_END (R155). -/
def execSettleEnd (ch : ChanId) (s : State) : Host.Outcome State Fault Refusal := .next (s.settleEnd ch)

/-- CONFLICT (R156). -/
def execConflict (a : GroupId) (b : GroupId) (s : State) : Host.Outcome State Fault Refusal := .next (s.conflictEvent a b)

/-- GREEN_IN_FLASH (R157). -/
def execGreenInFlash (g : GroupId) (s : State) : Host.Outcome State Fault Refusal := .next (s.greenInFlash g)

/-- RED_OUT (R158). -/
def execRedOut (g : GroupId) (s : State) : Host.Outcome State Fault Refusal := .next (s.redOutEvent g)

/-- UNCOMMANDED_ON (R160). -/
def execUncommandedOn (ch : ChanId) (s : State) : Host.Outcome State Fault Refusal := .next (s.uncommandedOn ch)

/-- LAMP_OUT (R160). -/
def execLampOut (ch : ChanId) (s : State) : Host.Outcome State Fault Refusal := .next (s.lampOut ch)

/-- SELF_CHECK_PASS (R165). -/
def execSelfCheckPass (s : State) : Host.Outcome State Fault Refusal := .next (s.selfCheckPass)

/-- SELF_CHECK_SETTLE_END (R165). -/
def execSelfCheckSettleEnd (s : State) : Host.Outcome State Fault Refusal := .next (s.selfCheckSettleEnd)

end Sys2Proof.Machine
end

