-- ==== Sys2Proof/Machine/Cycle.lean ====
section
/-! DEFINITION. Machine/Cycle.lean: the cycle clock and pattern unit at a frame boundary (R55), and its own commands. -/

namespace Sys2Proof.Machine

/-! ### The clock -/

/-- The position advances by one and wraps from C − 1 to 0 (R43). -/
def Cycle.advance (cLen : Nat) (c : Cycle) : Cycle :=
  { c with position := if c.position + 1 < cLen then c.position + 1 else 0 }

/-- The clock is set at position 0 (R46, R52). -/
def Cycle.setClock (c : Cycle) : Cycle := { c with set := true, position := 0, unsetWait := 0 }

/-- The clock becomes UNSET, its position reading 0 and the UNSET wait at 0 (R46, R52, R54); the wait reads 0 under
pattern 0 too, where none is kept (log 47). -/
def Cycle.unsetClock (c : Cycle) : Cycle := { c with set := false, position := 0, unsetWait := 0 }

/-- The lead e of a mark heard at position `p` (R45). -/
def leadOf (cLen p : Nat) : Nat := cLen - 1 - p

/-- A cycle mark is heard while the clock is SET (R45). -/
def Cycle.hearMark (cLen : Nat) (c : Cycle) : Cycle :=
  let e := leadOf cLen c.position
  if e ≤ cLen / 2 then { c with position := 0 }
  else { c.advance cLen with lateMarks := c.lateMarks + 1 }

/-- Step 1 of R55: the position part of a boundary (R43, R45, R46). -/
def Cycle.positionStep (cLen : Nat) (heard : Bool) (c : Cycle) : Cycle :=
  if c.active = 0 then c
  else if c.set then if heard then c.hearMark cLen else c.advance cLen
  else if heard then c.setClock
  else if c.unsetWait + 1 < cLen then { c with unsetWait := c.unsetWait + 1 }
  else c.setClock

/-- A jump with e above 2 happens at this boundary (R45). -/
def Cycle.bigJump (cLen : Nat) (heard : Bool) (c : Cycle) : Bool :=
  heard && c.set && !(c.active == 0) && decide (2 < leadOf cLen c.position) &&
    decide (leadOf cLen c.position ≤ cLen / 2)

/-- Step 2 of R55: the start hold count rises until it reaches tSH (R42). -/
def Cycle.holdStep (c : Cycle) : Cycle := { c with startHold := min (c.startHold + 1) tSH }

/-! ### Divergence (R53, R54) -/

/-- How many peers are PRESENT (R37). -/
def State.presentCount (s : State) : Nat := countFin fun k : StationId => (s.presentRecord k).isSome

/-- How many PRESENT peers show active pattern `q`. -/
def State.showing (s : State) (q : PatternId) : Nat :=
  countFin fun k : StationId => (s.presentRecord k).any fun r => r.active.toFin == q

/-- The divergence candidate of this boundary: a pattern other than the own active one that a strict majority
of the PRESENT peers show (R53). -/
def State.majority (s : State) : Option PatternId :=
  firstFin fun q => !(q == s.cycle.active) && decide (s.presentCount < 2 * s.showing q)

/-- Step 3 of R55, the candidate and the count; true when the candidate is adopted (R53). -/
def Cycle.divergenceStep (candidate : Option PatternId) (c : Cycle) : Cycle × Bool :=
  match candidate with
  | none => ({ c with divCandidate := none, divCount := 0 }, false)
  | some q =>
    if c.divCandidate = some q then
      if c.divCount < divergenceConfirm then ({ c with divCount := c.divCount + 1 }, false) else (c, true)
    else ({ c with divCandidate := some q, divCount := 1 }, false)

/-- Divergence adopts `q` (R54). -/
def Cycle.adoptDivergent (q : PatternId) (c : Cycle) : Cycle :=
  { c.unsetClock with active := q, divCandidate := none, divCount := 0 }

/-! ### Agreement (R51, R52) -/

/-- Every PRESENT peer's last good record shows requested pattern `q` (R51). -/
def State.allRequest (s : State) (q : PatternId) : Bool :=
  allFin fun k : StationId => (s.presentRecord k).all fun r => r.requested.toFin == q

/-- Agreement is tried at this boundary, judged after steps 1 and 2: the start hold is complete, and the active
pattern is 0 or the position has become 0 (R51). A SET position that reads 0 after step 1 became 0 there. -/
def Cycle.agreementOpen (c : Cycle) : Bool :=
  c.startHold == tSH && (c.active == 0 || (c.set && c.position == 0))

/-- Agreement adopts the requested pattern: its effect on the clock (R52), the divergence count back at 0. -/
def Cycle.adoptAgreed (p : Plan) (c : Cycle) : Cycle :=
  let c1 := { c with active := c.requested, divCount := 0 }
  if c.requested = 0 then c1.unsetClock
  else if !(c.active == 0) && p.cOf c.active == p.cOf c.requested then c1
  else c1.setClock

/-- An agreement from pattern `old` to pattern `new` disturbs the cycle: it set the position to 0, or it kept
the clock and changed OFS (R49, R52). -/
def agreementDisturbs (p : Plan) (old new : PatternId) : Bool :=
  if new = 0 then false
  else if !(old == 0) && p.cOf old == p.cOf new then
    !((p.patternOf old).map (·.ofs) == (p.patternOf new).map (·.ofs))
  else true

/-! ### One boundary (R55) -/

/-- The landing position's cycle point, if it is one (R48). -/
def State.cyclePoint (s : State) (p : Plan) : Option CyclePoint :=
  if s.cycle.set then
    match p.patternOf s.cycle.active with
    | none => none
    | some d =>
      if s.localPosition = 0 then some .zero
      else if s.localPosition = d.pREL then some .release
      else ((p.sequence.drop 1).find? fun t => d.pFO.nth t == s.localPosition).map .forceOff
  else none

/-- The notices of a boundary, from the unit before it and the state after steps 1 to 4; `disturbed` says
that a jump or an agreement of this boundary disturbs the cycle (R49). -/
def State.noticesOf (s : State) (p : Plan) (before : Cycle) (disturbed : Bool) : Notices :=
  { patternChanged := if s.cycle.active = before.active then none else some before.active
    clockUnset := before.set && !s.cycle.set
    clockSet := !before.set && s.cycle.set
    disturbed := disturbed && s.cycle.set
    point := s.cyclePoint p }

/-- Steps 1 to 4 of R55 with whether the cycle is disturbed. -/
def State.cycleSteps (s : State) (p : Plan) (heard : Bool) : Cycle × Bool :=
  let cLen := p.cOf s.cycle.active
  let jump := s.cycle.bigJump cLen heard
  let c2 := (s.cycle.positionStep cLen heard).holdStep
  let d := c2.divergenceStep s.majority
  if d.2 then
    match s.majority with
    | some q => (d.1.adoptDivergent q, jump)
    | none => (d.1, jump)
  else if d.1.agreementOpen && !(d.1.requested == d.1.active) && s.allRequest d.1.requested then
    (d.1.adoptAgreed p, jump || agreementDisturbs p d.1.active d.1.requested)
  else (d.1, jump)

/-- Step 5 of R55: the cycle-mark request is set at position C − 1 (R44). -/
def State.requestMark (s : State) (p : Plan) : State :=
  if s.cycle.set && s.cycle.position + 1 == p.cOf s.cycle.active
  then { s with line := { s.line with cycleMarkReq := true } } else s

/-- The cycle unit takes new values and hands its notices to the sequencer, which acts on them (R55 step 6,
R105); `before` is the unit as the boundary found it. -/
def State.cycleOutput (s : State) (p : Plan) (before : Cycle) (disturbed : Bool) : State :=
  (s.takeNotices (s.noticesOf p before disturbed)).react

/-- The cycle unit handles a frame boundary (R55). -/
def State.cycleBoundary (s : State) (p : Plan) (heard : Bool) : State :=
  let r := s.cycleSteps p heard
  State.cycleOutput (State.requestMark { s with cycle := r.1 } p) p s.cycle r.2

/-! ### Pattern lines (R50) -/

/-- The pair's value is judged after a filter has moved: a new value starts its timing (R50). -/
def State.judgePair (s : State) : State :=
  if s.panel.pairValue = s.cycle.pair then s
  else { s with cycle := { s.cycle with pair := s.panel.pairValue, pairTime := 0 } }

/-- A pattern line moves: the level is followed in DARK too, and judged from the release on (R193, R50). -/
def State.patternLineChange (s : State) (line : PatternLine) (level : Bool) (held : Nat) : State :=
  let s1 := s.samplePattern line level held
  if s.ctrl.mode = .dark then s1 else s1.judgePair

/-- The pair's value has held for tPS and is not the requested pattern yet (R50). -/
def State.patternDue (s : State) : Bool :=
  !(s.ctrl.mode == .dark) && decide (tPS ≤ s.cycle.pairTime) && !(s.cycle.pair == s.cycle.requested)

/-- The held value becomes the requested pattern (R50). -/
def State.requestedPatternChange (s : State) : State :=
  if s.patternDue then { s with cycle := { s.cycle with requested := s.cycle.pair } } else s

/-! ### The rows inside a boundary, given alone (log 5) -/

/-- The start hold reaches tSH (R42). -/
def State.startHoldEnd (s : State) : State :=
  if s.plan.isSome && s.cycle.startHold + 1 == tSH
  then { s with cycle := { s.cycle with startHold := tSH } } else s

/-- The UNSET wait reaches C (R46). -/
def State.unsetWaitEnd (s : State) : State :=
  match s.plan with
  | none => s
  | some p =>
    if !(s.cycle.active == 0) && !s.cycle.set && s.cycle.unsetWait + 1 == p.cOf s.cycle.active
    then State.cycleOutput { s with cycle := s.cycle.setClock } p s.cycle false
    else s

/-- The fourth boundary in a row with a majority for the held candidate (R53, R54). -/
def State.divergenceAdoption (s : State) : State :=
  match s.plan, s.majority with
  | some p, some q =>
    if (s.cycle.divergenceStep (some q)).2
    then State.cycleOutput { s with cycle := s.cycle.adoptDivergent q } p s.cycle false
    else s
  | _, _ => s

/-! ### Meanings -/

/-- START_HOLD_END (R42; log 5). -/
def execStartHoldEnd (s : State) : Host.Outcome State Fault Refusal := .next (s.startHoldEnd)

/-- UNSET_WAIT_END (R46; log 5). -/
def execUnsetWaitEnd (s : State) : Host.Outcome State Fault Refusal := .next (s.unsetWaitEnd)

/-- DIVERGENCE_ADOPTION (R54; log 5). -/
def execDivergenceAdoption (s : State) : Host.Outcome State Fault Refusal := .next (s.divergenceAdoption)

/-- PATTERN_LINE_CHANGE (R193): a pattern line is asserted while low (R198). -/
def execPatternLineChange (line : PatternLine) (pin : Bool) (held : Nat) (s : State) : Host.Outcome State Fault Refusal := .next (s.patternLineChange line (activeLow pin) held)

/-- REQUESTED_PATTERN_CHANGE (R50). -/
def execRequestedPatternChange (s : State) : Host.Outcome State Fault Refusal := .next (s.requestedPatternChange)

end Sys2Proof.Machine
end

