-- ==== Sys2Proof/Machine/Peers.lean ====
section
/-! DEFINITION. Machine/Peers.lean: the evaluation of a peer table entry against its slot outcome. -/

namespace Sys2Proof.Machine

/-- Presence by classification of a stored record (R32). -/
def classify (fingerprint : Half) (r : Record) : Presence :=
  if r.format ≠ 1 ∨ r.fingerprint ≠ fingerprint then .foreign
  else if r.checkPassed = false ∨ r.inRange = false then .unfit
  else .present

/-- An entry is classified from the record just stored in it (R32). -/
def Peer.classified (fingerprint : Half) (r : Record) (e : Peer) : Peer :=
  { e with presence := classify fingerprint r, run := admitRun, miss := 0, record := some r, fresh := true }

/-- An entry becomes ABSENT, its record discarded (R31, R34). -/
def Peer.toAbsent (e : Peer) : Peer :=
  { e with presence := .absent, run := 0, miss := 0, record := none, fresh := false }

/-- An entry becomes HEARD at its first good record (R31, R34). -/
def Peer.toHeard (r : Record) (e : Peer) : Peer :=
  { e with presence := .heard, run := 1, miss := 0, record := some r, fresh := true }

/-- The tenth miss of a PRESENT, FOREIGN or UNFIT entry (R33). -/
def Peer.toLost (e : Peer) : Peer := { e with presence := .lost, miss := e.miss + 1, fresh := false }

/-- Evaluation with GOOD (R31 to R35). -/
def Peer.good (fingerprint : Half) (r : Record) (e : Peer) : Peer :=
  match e.presence with
  | .absent | .lost => e.toHeard r
  | .heard =>
    if e.run + 1 < admitRun then { e with run := e.run + 1, record := some r, fresh := true }
    else e.classified fingerprint r
  | .present | .foreign | .unfit => e.classified fingerprint r
  | .self => e

/-- Evaluation with BAD or SILENT (R31 to R35). -/
def Peer.missed (e : Peer) : Peer :=
  match e.presence with
  | .absent => { e with fresh := false }
  | .heard => e.toAbsent
  | .present | .foreign | .unfit =>
    if e.miss + 1 < missLost then { e with miss := e.miss + 1, fresh := false } else e.toLost
  | .lost => if e.miss + 1 < missAbsent then { e with miss := e.miss + 1, fresh := false } else e.toAbsent
  | .self => e

/-- A BAD outcome raises the bad-record count, which holds at 255 (R36). -/
def Peer.countBad (e : Peer) : Peer :=
  if e.presence = .self then e else { e with badCount := min (e.badCount + 1) 255 }

/-- One entry evaluated against the outcome of its slot (R29). -/
def Peer.evaluate (fingerprint : Half) (o : Outcome) (e : Peer) : Peer :=
  match o with
  | .good r => e.good fingerprint r
  | .bad => e.missed.countBad
  | .silent => e.missed
  | .own => e

/-- The fingerprint this station compares with (R32). -/
def State.fingerprint (s : State) : Half :=
  match s.plan with
  | some p => p.fingerprint
  | none => 0

/-- Every entry is evaluated once, each with its own slot outcome only (R29). -/
def State.evaluatePeers (s : State) (outcome : StationId → Outcome) : State :=
  { s with peers := .tab fun k => (s.peers.nth k).evaluate s.fingerprint (outcome k) }

/-! ### Commands -/

/-- The entry takes a good record that classifies it: the third of HEARD, or any in PRESENT, FOREIGN or
UNFIT. -/
def Peer.classifiable (e : Peer) : Bool :=
  match e.presence with
  | .heard => decide (admitRun ≤ e.run + 1)
  | .present | .foreign | .unfit => true
  | .absent | .lost | .self => false

/-- PEER_CLASSIFICATION (R32): a good record arrives that classifies entry `k` (log 5). -/
def State.peerClassification (s : State) (k : StationId) (chars : List Byte) : State :=
  match goodRecord k chars with
  | none => s
  | some r =>
    if (s.peers.nth k).classifiable then s.updPeer k (Peer.classified s.fingerprint r) else s

/-- PEER_LOST (R33): the tenth miss in a row of a PRESENT, FOREIGN or UNFIT entry (log 5). -/
def State.peerLost (s : State) (k : StationId) : State :=
  let e := s.peers.nth k
  match e.presence with
  | .present | .foreign | .unfit => if missLost ≤ e.miss + 1 then s.updPeer k Peer.toLost else s
  | .absent | .heard | .lost | .self => s

/-- PEER_ABSENT (R34): the fiftieth miss in a row of a LOST entry (log 5). -/
def State.peerAbsent (s : State) (k : StationId) : State :=
  let e := s.peers.nth k
  match e.presence with
  | .lost => if missAbsent ≤ e.miss + 1 then s.updPeer k Peer.toAbsent else s
  | .absent | .heard | .present | .foreign | .unfit | .self => s

/-! ### Meanings -/

/-- PEER_CLASSIFICATION (R32; log 5). -/
def execPeerClassification (peer : StationId) (chars : List Byte) (s : State) : Host.Outcome State Fault Refusal := .next (s.peerClassification peer chars)

/-- PEER_LOST (R33; log 5). -/
def execPeerLost (peer : StationId) (s : State) : Host.Outcome State Fault Refusal := .next (s.peerLost peer)

/-- PEER_ABSENT (R34; log 5). -/
def execPeerAbsent (peer : StationId) (s : State) : Host.Outcome State Fault Refusal := .next (s.peerAbsent peer)

end Sys2Proof.Machine
end

