-- ==== Sys2Proof/Machine/Line.lean ====
section
/-! DEFINITION. Machine/Line.lean: the corridor line interface: the frame boundary and the commands of the line. -/

namespace Sys2Proof.Machine

/-! ### The line record -/

/-- The receiver judges slots and classifies runs in LISTEN, ACTIVE and SILENT_FAULT (R3, R14). -/
def LineState.receiving : LineState → Bool
  | .listen | .active | .silentFault => true
  | .off | .stuck => false

/-- The device drives nothing more: mark and record are released (R11, R13, R19). -/
def Line.silence (l : Line) : Line := { l with markDrive := none, sending := none }

/-- The line interface becomes SILENT_FAULT, timed or permanent by the retry budget; a STUCK line stays STUCK
(R13; log 11). -/
def Line.toSilentFault (l : Line) : Line :=
  let st : LineState := if l.st = .stuck then .stuck else .silentFault
  let l1 := { l.silence with collisionRun := 0, st := st }
  if l.budget = 0 then { l1 with sfKind := .permanent }
  else { l1 with budget := 0, sfKind := .timed, sfHold := 0 }

/-- The end of a transmission is counted (R13). -/
def Line.countTransmission (l : Line) : Line :=
  let l1 := { l with txEnd := none }
  match l.txEnd with
  | none | some .slip | some .judging => l1
  | some .clean => { l1 with collisionRun := 0 }
  | some .collision =>
    if l.collisionRun + 1 < collisionLimit then { l1 with collisionRun := l.collisionRun + 1 }
    else l1.toSilentFault

/-- The SILENT_FAULT hold ends (R13): the count keeps its last value (log 13). -/
def Line.holdOver (l : Line) : Line :=
  { l with
    sfHold := tSFH
    sfKind := .none
    st := if l.st = .stuck then .stuck else .listen
    listenCount := if l.st = .stuck then l.listenCount else 0 }

/-- A timed SILENT_FAULT counts one boundary (R13). -/
def Line.countHold (l : Line) : Line :=
  if l.sfHold + 1 < tSFH then { l with sfHold := l.sfHold + 1 } else l.holdOver

/-- LISTEN counts one boundary (R18). -/
def Line.countListen (l : Line) : Line :=
  if l.listenCount + 1 < listenPeriod then { l with listenCount := l.listenCount + 1 }
  else { l with listenCount := listenPeriod, st := .active }

/-- The count that the line state keeps advances at a boundary (R9). -/
def Line.countBoundary (l : Line) : Line :=
  if l.sfKind = .timed then l.countHold
  else if l.st = .listen then l.countListen
  else l

/-- The line interface's own part of a boundary (R5, R7, R9, R10): the timer stands at `age` bit times after
the new frame start, the boundary-pending state ends, and with it the request that its expiry read. A
transmission still uncounted in a cut frame is counted now (log 12). -/
def Line.boundary (age : Nat) (l : Line) : Line :=
  Line.countTransmission (Line.countBoundary { l with
    frameTimer := some age
    pending := none
    cycleMarkReq := l.cycleMarkReq && l.pending.isNone
    sending := none
    outcomes := .tab fun _ => none })

/-- A record is being sent, or a mismatch has stopped it and its run is under way (R12). -/
def Line.inRecord (l : Line) : Bool := l.sending.isSome || l.txEnd == some .judging

/-- A dominant run that reaches 24 bit times while the device sends, or that has caused the mismatch which stopped
it, is a frame slip (R12). A record begun inside a mark that had already passed 24 bit times is cut so at that
mark's end (log 38). -/
def Line.slip (l : Line) : Line :=
  if l.inRecord then { l with sending := none, txEnd := some .slip, slips := l.slips + 1 } else l

/-! ### Slot outcomes (R14, R17) -/

/-- The outcome of a slot of a frame that ran to its end: OWN for the own slot, else as it was judged, SILENT
where nothing was taken in it (R17; log 10). -/
def State.judgedOutcome (s : State) (k : StationId) : Outcome :=
  if s.ownSlot k then .own else (s.line.outcomes.nth k).getD .silent

/-- The outcome of a slot at a boundary taken in STUCK: all BAD but the own (R14, R19). -/
def State.stuckOutcome (s : State) (k : StationId) : Outcome := if s.ownSlot k then .own else .bad

/-- The outcome of a slot of a frame cut `age` bit times after its start (R14): `startEdge` says that a start
edge had been accepted in the slot in progress. -/
def State.cutOutcome (s : State) (age : Nat) (startEdge : Bool) (k : StationId) : Outcome :=
  if s.ownSlot k then .own
  else if slotFinish k ≤ age then s.judgedOutcome k
  else if slotBegin k ≤ age ∧ startEdge = true then .bad
  else .silent

/-! ### The frame boundary (R9) -/

/-- Each remote detector takes its value from the peer table (R123, R124). -/
def State.remoteValue (s : State) (r : RemoteId) : Remote :=
  match s.remoteDef r with
  | none => .unused
  | some d =>
    match s.presentRecord d.station with
    | none => .lost
    | some rec_ => if BitSet.has rec_.faults d.input then .lost else .normal (BitSet.has rec_.occupancy d.input)

/-- Every remote detector at a boundary, handed on together (R123, R124). -/
def State.remoteBoundary (s : State) : State :=
  State.react { s with remotes := .tab fun r => s.remoteValue r }

/-- The claim unit at a boundary, and what follows from it (R147). -/
def State.claimsBoundary (s : State) (p : Plan) : State := (s.claimBoundary p).react

/-- The cycle unit, the remote detectors and the claim unit at a boundary, in one of their six orders
(log 14). -/
def State.blocksBoundary (s : State) (p : Plan) (heard : Bool) (order : Nat) : State :=
  match order with
  | 0 => ((s.cycleBoundary p heard).remoteBoundary).claimsBoundary p
  | 1 => ((s.cycleBoundary p heard).claimsBoundary p).remoteBoundary
  | 2 => ((s.remoteBoundary).cycleBoundary p heard).claimsBoundary p
  | 3 => ((s.remoteBoundary).claimsBoundary p).cycleBoundary p heard
  | 4 => ((s.claimsBoundary p).cycleBoundary p heard).remoteBoundary
  | _ => ((s.claimsBoundary p).remoteBoundary).cycleBoundary p heard

/-- The blocks that a loaded plan has brought into action take the boundary (R42, R109, R148). -/
def State.planBoundary (s : State) (heard : Bool) : State :=
  match s.plan with
  | none => s
  | some p =>
    let d := s.draw 6
    let s1 := d.2.blocksBoundary p heard d.1
    { s1 with latched := s1.latchNow }

/-- The peer table evaluates the frame that has ended; none is handed on in OFF (R17, R29). -/
def State.handOutcomes (s : State) (outcome : StationId → Outcome) : State :=
  if s.line.st = .off then s else s.evaluatePeers outcome

/-- The transmit snapshot is taken (R24). -/
def State.takeSnapshot (s : State) : State := { s with line := { s.line with snapshot := s.snapshotNow } }

/-- The frame boundary (R9): the outcomes to the peer table, the line's own part, ACT (R21), the flash
generator (R153), the blocks, and the transmit snapshot with this boundary's effects included. -/
def State.frameBoundary (s : State) (heard : Bool) (age : Nat) (outcome : StationId → Outcome) : State :=
  let s1 := s.handOutcomes outcome
  let s2 := { s1 with line := s1.line.boundary age, act := !s1.act }
  (s2.flashBoundary.planBoundary heard).takeSnapshot

/-! ### Expiry and mark (R6) -/

/-- At an expiry in ACTIVE the device drives: the line is recessive, or its run began no more than tJW
earlier (R6). -/
def drivesAt (run : Option Nat) : Bool := run.all fun a => decide (a ≤ tJW)

/-- The mark the request asks for (R6, R10). -/
def Line.markOf (l : Line) : Nat := if l.cycleMarkReq then tCM else tFM

/-- The frame timer expires (R6, R7). The receiver reads the line whether or not the device drives (R1): a mark
that reaches the line is a run from the expiry on, and one that does not leaves the run as received. -/
def State.frameTimerExpiry (s : State) (run : Option Nat) (reaches : Bool) : State :=
  match s.line.frameTimer, s.line.pending with
  | some t, none =>
    if t < tFRM then s
    else
      let age := t - tFRM
      let l := s.line
      match l.st with
      | .active =>
        if drivesAt run then
          { s with line := { l with
              markDrive := some l.markOf
              run := if reaches then some (run.getD 0) else run
              pending := some { age := age, run := run.isSome || reaches } } }
        else { s with line := { l with run := run, pending := some { age := age, run := true } } }
      | .listen | .silentFault =>
        { s with line := { l with run := run, pending := some { age := age, run := run.isSome } } }
      | .off | .stuck => { s with line := { l with pending := some { age := age, run := false } } }
  | _, _ => s

/-- The device's own mark drive ends and the line is released (R6). -/
def State.markDriveEnd (s : State) : State :=
  if s.line.markDrive = some 0 then { s with line := { s.line with markDrive := none } } else s

/-! ### Runs (R3, R7, R8) -/

/-- A malformed mark is counted (R3). -/
def Line.countMalformed (c : RunClass) (l : Line) : Line :=
  if c = .malformed then { l with malformed := l.malformed + 1 } else l

/-- The pending expiry is resolved by a run of this length ending now: it was under way at the expiry or began
within tJW after it (R7). -/
def Line.resolves (l : Line) (len : Nat) : Bool := l.pending.any fun q => decide (q.age ≤ len + tJW)

/-- The trailing edge of a dominant run in LISTEN, ACTIVE or SILENT_FAULT (R3, R7, R8, R12). An expiry taken in OFF or
STUCK whose tJW is still open when the line becomes LISTEN or SILENT_FAULT is pending like any other from then on
(log 46). -/
def State.runEnd (s : State) (len : Nat) (startEdge : Bool) : State :=
  let c := runClass len
  if c = .stuck then s
  else
    let l := if c = .short then s.line else s.line.slip
    let s1 := { s with line := l.countMalformed c }
    if l.resolves len then s1.frameBoundary (c == .cycleMark) len s1.judgedOutcome
    else if c.valid then
      s1.frameBoundary (c == .cycleMark) len (s1.cutOutcome (s1.line.frameTimer.getD 0 - len) startEdge)
    else s1

/-- A dominant run ends on the line as received, whether or not the device drives (R1). -/
def State.dominantRunEnd (s : State) (len : Nat) (startEdge : Bool) : State :=
  let s1 := { s with line := { s.line with run := none, recessive := 0 } }
  if s.line.st.receiving then s1.runEnd len startEdge else s1

/-- The join window closes (R7, case 2; OFF and STUCK; log 46). -/
def State.joinWindowClose (s : State) : State :=
  match s.line.pending with
  | none => s
  | some q =>
    if q.age < tJW then s
    else
      match s.line.st with
      | .off => s.frameBoundary false q.age s.judgedOutcome
      | .stuck => s.frameBoundary false q.age s.stuckOutcome
      | .listen | .active | .silentFault =>
        if q.run then s else s.frameBoundary false q.age s.judgedOutcome

/-- A run under way makes the line stuck: it passes tSTK, or an expiry that its run holds pending, under way then
or begun within tJW after it, lies tSTK back (R7, R19). -/
def Line.stuckBy (l : Line) (run : Nat) : Bool :=
  l.st.receiving &&
    (decide (tSTK < run) || l.pending.any fun q => decide (tSTK ≤ q.age) && decide (q.age ≤ run + tJW))

/-- The line becomes STUCK, with the boundary of a pending expiry (R7 case 3, R8, R19). -/
def State.lineStuck (s : State) (run : Nat) : State :=
  if s.line.stuckBy run then
    let l := s.line.slip
    let s1 := { s with line := { l.silence with st := .stuck, run := some run, recessive := 0 } }
    match s.line.pending with
    | none => s1
    | some q => s1.frameBoundary false q.age s1.judgedOutcome
  else s

/-- STUCK ends after tFRM of recessive line (R19); the slots begun in STUCK are BAD (R14). -/
def State.stuckEnd (s : State) : State :=
  let l := s.line
  if l.st = .stuck ∧ l.run = none ∧ tFRM ≤ l.recessive then
    let l1 := { l with outcomes := .tab fun k =>
      if !(s.ownSlot k) && l.reached (slotBegin k) then some .bad else l.outcomes.nth k }
    if l.sfKind = .none then { s with line := { l1 with st := .listen, listenCount := 0 } }
    else { s with line := { l1 with st := .silentFault } }
  else s

/-! ### Transmission (R11 to R13) -/

/-- The own slot's lead-in ends in ACTIVE (R11); a mark under way there does not keep the record from being begun
(log 38). -/
def State.sendDue (s : State) : Bool :=
  s.line.st == .active && s.line.sending.isNone && s.line.txEnd.isNone && !s.line.snapshot.isEmpty &&
    s.plan.any fun p => s.line.frameTimer == some (slotBegin p.station + tLI)

/-- The device begins to send its transmit snapshot (R11). -/
def State.recordTransmission (s : State) : State :=
  if s.sendDue then { s with line := { s.line with sending := some 0 } } else s

/-- The last stop bit is sent without a mismatch (R11). -/
def State.recordTransmissionEnd (s : State) : State :=
  match s.line.sending with
  | none => s
  | some n =>
    if 10 * s.line.snapshot.length ≤ n
    then { s with line := { s.line with sending := none, txEnd := some .clean } } else s

/-- A mark falls on the record being sent (R12). -/
def State.frameSlip (s : State) : State :=
  if s.line.inRecord then { s with line := { s.line.slip with run := some markLength, recessive := 0 } }
  else s

/-- The transmission ends in a collision, which is counted (R12). -/
def Line.collide (l : Line) : Line :=
  { l with sending := none, txEnd := some .collision, collisions := l.collisions + 1 }

/-- The bit of the record that is being sent, true being recessive; none while no bit is (R2, R11). -/
def Line.sentBit (l : Line) : Option Bool := l.sending.bind fun n => (recordBits l.snapshot)[n]?

/-- The level read back at the middle of the bit being sent is compared with the level sent (R12): where the two
agree nothing happens, and a mismatch stops the transmission at once. Sent dominant and read recessive it is a
collision; sent recessive and read dominant it is judged by the dominant run that caused it, a collision when that
run ends before 24 bit times. -/
def Line.readback (l : Line) : Readback → Line
  | .recessive => if l.sentBit == some false then l.collide else l
  | .dominant none => if l.sentBit == some true then { l with sending := none, txEnd := some .judging } else l
  | .dominant (some run) =>
    if (l.sentBit == some true || l.txEnd == some .judging) && decide (run < markLength) then l.collide else l

/-- A level read back, or the end of the run that caused a mismatch (R12; log 9). -/
def State.collision (s : State) (r : Readback) : State := { s with line := s.line.readback r }

/-- The own slot has ended, and its transmission is still to be counted (R13). -/
def State.ownSlotOver (s : State) : Bool :=
  s.line.txEnd.isSome && s.plan.any fun p => s.line.reached (slotFinish p.station)

/-- The own slot ends (R13). -/
def State.ownSlotEnd (s : State) : State :=
  if s.ownSlotOver then { s with line := s.line.countTransmission } else s

/-! ### Reception (R14, R15) -/

/-- Slot `k` is one the receiver has yet to judge. -/
def State.slotOpen (s : State) (k : StationId) : Bool :=
  s.line.st.receiving && !(s.ownSlot k) && (s.line.outcomes.nth k).isNone

/-- A slot's outcome is kept (R17). -/
def State.keepOutcome (s : State) (k : StationId) (o : Outcome) : State :=
  { s with line := { s.line with outcomes := s.line.outcomes.put k (some o) } }

/-- No start edge within tSS: the slot is SILENT (R14). -/
def State.slotSilent (s : State) (k : StationId) : State :=
  if s.slotOpen k && s.line.reached (slotBegin k + tSS) then s.keepOutcome k .silent else s

/-- The slot ends with what the receiver took in it (R14, R15). -/
def State.slotReception (s : State) (k : StationId) (edges : List RxEdge) : State :=
  if s.slotOpen k && s.line.reached (slotFinish k) then s.keepOutcome k (slotOutcome k edges) else s

/-! ### The rows inside a boundary, given alone (log 5) -/

/-- The SILENT_FAULT hold count reaches tSFH (R13). -/
def State.silentFaultHoldEnd (s : State) : State :=
  if s.line.sfKind = .timed ∧ s.line.sfHold + 1 = tSFH then { s with line := s.line.holdOver } else s

/-- The LISTEN boundary count reaches 3 (R18). -/
def State.listenEnd (s : State) : State :=
  if s.line.st = .listen ∧ s.line.listenCount + 1 = listenPeriod
  then { s with line := s.line.countListen } else s

/-! ### Meanings -/

/-- FRAME_TIMER_EXPIRY (R6). -/
def execFrameTimerExpiry (line : ExpiryLine) (s : State) : Host.Outcome State Fault Refusal :=
  .next (s.frameTimerExpiry line.run line.reaches)

/-- MARK_DRIVE_END (R6). -/
def execMarkDriveEnd (s : State) : Host.Outcome State Fault Refusal := .next (s.markDriveEnd)

/-- DOMINANT_RUN_END (R3). -/
def execDominantRunEnd (len : Nat) (startEdge : Bool) (s : State) : Host.Outcome State Fault Refusal := .next (s.dominantRunEnd len startEdge)

/-- JOIN_WINDOW_CLOSE (R7). -/
def execJoinWindowClose (s : State) : Host.Outcome State Fault Refusal := .next (s.joinWindowClose)

/-- LINE_STUCK (R19). -/
def execLineStuck (run : Nat) (s : State) : Host.Outcome State Fault Refusal := .next (s.lineStuck run)

/-- FRAME_SLIP (R12). -/
def execFrameSlip (s : State) : Host.Outcome State Fault Refusal := .next (s.frameSlip)

/-- RECORD_TRANSMISSION (R11). -/
def execRecordTransmission (s : State) : Host.Outcome State Fault Refusal := .next (s.recordTransmission)

/-- RECORD_TRANSMISSION_END (R11). -/
def execRecordTransmissionEnd (s : State) : Host.Outcome State Fault Refusal := .next (s.recordTransmissionEnd)

/-- COLLISION (R12). -/
def execCollision (readback : Readback) (s : State) : Host.Outcome State Fault Refusal := .next (s.collision readback)

/-- OWN_SLOT_END (R13). -/
def execOwnSlotEnd (s : State) : Host.Outcome State Fault Refusal := .next (s.ownSlotEnd)

/-- SILENT_FAULT_HOLD_END (R13; log 5). -/
def execSilentFaultHoldEnd (s : State) : Host.Outcome State Fault Refusal := .next (s.silentFaultHoldEnd)

/-- LISTEN_END (R18; log 5). -/
def execListenEnd (s : State) : Host.Outcome State Fault Refusal := .next (s.listenEnd)

/-- STUCK_END (R19). -/
def execStuckEnd (s : State) : Host.Outcome State Fault Refusal := .next (s.stuckEnd)

/-- SLOT_SILENT (R14). -/
def execSlotSilent (slot : StationId) (s : State) : Host.Outcome State Fault Refusal := .next (s.slotSilent slot)

/-- SLOT_RECEPTION (R15). -/
def execSlotReception (slot : StationId) (pos : Nat) (levels : BitVec 10) (further : List RxEdge) (s : State) :
    Host.Outcome State Fault Refusal := .next (s.slotReception slot (⟨pos, levels⟩ :: further))

end Sys2Proof.Machine
end

