-- ==== Sys2Proof/Machine/Detectors.lean ====
section
/-! DEFINITION. Machine/Detectors.lean: the commands of the local detectors: filter, edges, occupancy, faults and counts. -/

namespace Sys2Proof.Machine

/-! ### The filter (R110, R111) -/

/-- tDF in ticks. -/
def LocalDef.filterTicks (f : LocalDef) : Nat := tenMs * f.tDF

/-- The raw input moves (R110). Its level is known in every mode; the filter times it while the detector is
defined: a move off the filtered level starts the timing, and one back to it drops it. Until the initial level
is taken every move starts it (R111). -/
def Det.inputChange (level : Bool) (d : Det) : Det :=
  if level = d.raw then d else { d with raw := level, filt := 0 }

/-- The detector has taken its initial level, its filtered level is not the raw one, and the raw input has
held for tDF (R110). -/
def Det.edgeDue (f : LocalDef) (d : Det) : Bool :=
  d.initial && !(d.raw == d.level) && decide (f.filterTicks ≤ d.filt)

/-- The raw input has held one level for tDF since the successful load (R111). -/
def Det.initialDue (f : LocalDef) (d : Det) : Bool := !d.initial && decide (f.filterTicks ≤ d.filt)

/-- The silence timing from its start, for a detector that keeps it (R120). -/
def LocalDef.silenceStart (f : LocalDef) : Option Nat := if f.tMSL = 0 then none else some 0

/-- The initial level is taken, which is no edge (R111, R119, R120, R126). -/
def Det.takeInitial (f : LocalDef) (d : Det) : Det :=
  { d with
    initial := true
    level := d.raw
    presence := if d.raw then some 0 else none
    silence := f.silenceStart
    active := if d.raw then some 0 else none }

/-! ### Edges (R112, R113, R119, R120, R126) -/

/-- What a rising edge does to the detector itself. -/
def Det.rise (f : LocalDef) (d : Det) : Det :=
  { d with
    level := true
    filt := 0
    pulse := if f.mode = .pulse then some 0 else d.pulse
    fault := if d.fault = .silent then .normal else d.fault
    presence := some 0
    silence := if d.fault = .stuck then none else f.silenceStart
    active := some 0
    count := d.count + 1 }

/-- The length of an active period as a capture value: 0.1 s, saturating (R126; log 21). -/
def captureOf (ticks : Nat) : Half := BitVec.ofNat 16 (min (ticks / tenth) saturation)

/-- What a falling edge does to the detector itself. -/
def Det.fall (f : LocalDef) (d : Det) : Det :=
  { d with
    level := false
    filt := 0
    fault := if d.fault = .stuck then .normal else d.fault
    presence := none
    silence := if d.fault = .stuck then f.silenceStart else d.silence
    active := none
    capture := captureOf (d.active.getD 0) }

/-- A press of detector `d`: a locking call to each group of its call list that is not GREEN (R113, R115). -/
def State.press (s : State) (d : LocalId) (f : LocalDef) : State :=
  { s with callers := .tab fun g =>
      if BitSet.has f.calls g && !((s.groups.nth g).state == .green)
      then s.callers.nth g ||| bitsOf (fun e => e == d) else s.callers.nth g }

/-- What a rising edge does beyond the detector, by mode (R113). -/
def State.edgeByMode (s : State) (d : LocalId) (f : LocalDef) : State :=
  match f.mode with
  | .presence | .pulse => s
  | .button => s.press d f
  | .claim n q => s.claimEdge n q
  | .checkout n => s.checkOut n

/-! ### Commands -/

/-- DETECTOR_INPUT_CHANGE (R110). -/
def State.detectorInputChange (s : State) (d : LocalId) (level : Bool) : State :=
  s.updDet d (Det.inputChange level)

/-- INITIAL_LEVEL (R111). -/
def State.initialLevel (s : State) (d : LocalId) : State :=
  match s.localDef d with
  | none => s
  | some f => if (s.dets.nth d).initialDue f then (s.updDet d (Det.takeInitial f)).react else s

/-- DETECTOR_RISING_EDGE (R113). -/
def State.detectorRisingEdge (s : State) (d : LocalId) : State :=
  match s.localDef d with
  | none => s
  | some f =>
    if (s.dets.nth d).edgeDue f && !(s.dets.nth d).level
    then ((s.updDet d (Det.rise f)).edgeByMode d f).react else s

/-- DETECTOR_FALLING_EDGE (R110, R119, R126). -/
def State.detectorFallingEdge (s : State) (d : LocalId) : State :=
  match s.localDef d with
  | none => s
  | some f =>
    if (s.dets.nth d).edgeDue f && (s.dets.nth d).level
    then (s.updDet d (Det.fall f)).react else s

/-- The pulse occupancy has lasted tPO since the latest rising edge (R112). -/
def Det.pulseDue (d : Det) : Bool := d.pulse.any fun t => decide (tPO ≤ t)

/-- PULSE_OCCUPANCY_END (R112). -/
def State.pulseOccupancyEnd (s : State) (d : LocalId) : State :=
  if (s.dets.nth d).pulseDue then (s.updDet d fun r => { r with pulse := none }).react else s

/-- The filtered level has been active for tMP (R119). -/
def Det.stuckDue (f : LocalDef) (d : Det) : Bool :=
  d.fault == .normal && d.presence.any fun t => decide (minute * f.tMP ≤ t)

/-- FAULT_STUCK (R119): the silence timing is not kept while it lasts (R120). -/
def State.faultStuck (s : State) (d : LocalId) : State :=
  match s.localDef d with
  | none => s
  | some f =>
    if (s.dets.nth d).stuckDue f
    then (s.updDet d fun r => { r with fault := .stuck, silence := none }).react else s

/-- tMSL has passed since the silence timing restarted, with the filtered level inactive (R120): an active one has
reached FAULT_STUCK before. -/
def Det.silentDue (f : LocalDef) (d : Det) : Bool :=
  d.fault == .normal && !d.level && d.silence.any fun t => decide (hour * f.tMSL ≤ t)

/-- FAULT_SILENT (R120). -/
def State.faultSilent (s : State) (d : LocalId) : State :=
  match s.localDef d with
  | none => s
  | some f =>
    if (s.dets.nth d).silentDue f
    then (s.updDet d fun r => { r with fault := .silent }).react else s

/-! ### Panel fault reset (R122) -/

/-- A detector at a panel fault reset: NORMAL, its presence timing restarted where the filtered level is
active and its silence timing where it keeps one (R122). A detector whose initial level is not taken has
started no timing yet (R119, R120). -/
def Det.faultReset (f : LocalDef) (d : Det) : Det :=
  if d.initial then
    { d with
      fault := .normal
      presence := if d.level then some 0 else none
      silence := f.silenceStart }
  else d

/-- The detector fault reset order (R122). -/
def State.detectorFaultReset (s : State) : State :=
  { s with dets := .tab fun d =>
      match s.localDef d with
      | none => s.dets.nth d
      | some f => (s.dets.nth d).faultReset f }

/-! ### Meanings -/

/-- DETECTOR_INPUT_CHANGE (R110): a detector input is active while low (R198). -/
def execDetectorInputChange (d : LocalId) (pin : Bool) (s : State) : Host.Outcome State Fault Refusal := .next (s.detectorInputChange d (activeLow pin))

/-- INITIAL_LEVEL (R111). -/
def execInitialLevel (d : LocalId) (s : State) : Host.Outcome State Fault Refusal := .next (s.initialLevel d)

/-- DETECTOR_RISING_EDGE (R113). -/
def execDetectorRisingEdge (d : LocalId) (s : State) : Host.Outcome State Fault Refusal := .next (s.detectorRisingEdge d)

/-- DETECTOR_FALLING_EDGE (R119). -/
def execDetectorFallingEdge (d : LocalId) (s : State) : Host.Outcome State Fault Refusal := .next (s.detectorFallingEdge d)

/-- PULSE_OCCUPANCY_END (R112). -/
def execPulseOccupancyEnd (d : LocalId) (s : State) : Host.Outcome State Fault Refusal := .next (s.pulseOccupancyEnd d)

/-- FAULT_STUCK (R119). -/
def execFaultStuck (d : LocalId) (s : State) : Host.Outcome State Fault Refusal := .next (s.faultStuck d)

/-- FAULT_SILENT (R120). -/
def execFaultSilent (d : LocalId) (s : State) : Host.Outcome State Fault Refusal := .next (s.faultSilent d)

end Sys2Proof.Machine
end

