-- ==== Sys2Proof/Machine/PlanImage.lean ====
section
/-! DEFINITION. Machine/PlanImage.lean: the plan image: header, section chain, layout, content checks with their codes, and the plan it gives. -/

namespace Sys2Proof.Machine

/-! ### Bytes of a body (R188) -/

/-- The byte at an offset. -/
def byteAt (l : List Byte) (i : Nat) : Nat := (l.getD i 0).toNat

/-- The two-byte field at an offset, low byte first. -/
def wordAt (l : List Byte) (i : Nat) : Nat := byteAt l i + 256 * byteAt l (i + 1)

/-- The group set at an offset. -/
def setAt (l : List Byte) (i : Nat) : GroupSet := l.getD (i + 1) 0 ++ l.getD i 0

/-- The thing with number `b`, counted from 1, of `n` things; none for every other number. -/
def numbered (n b : Nat) : Option (Fin n) :=
  if h : 1 ≤ b ∧ b ≤ n then some ⟨b - 1, by omega⟩ else none

/-- `a` lies from `lo` to `hi`. -/
def within (lo hi a : Nat) : Bool := decide (lo ≤ a) && decide (a ≤ hi)

/-! ### Header (R184) -/

/-- The image length that the header gives. -/
def imageLength (bytes : List Byte) : Nat := wordAt bytes 2

/-- The header's plan fault code, none when it passes: magic, then version, then length (R184). -/
def headerCode (bytes : List Byte) : Option Nat :=
  if byteAt bytes 0 ≠ 76 ∨ byteAt bytes 1 ≠ 82 then some 2
  else if byteAt bytes 4 ≠ 1 then some 3
  else if within 10 4096 (imageLength bytes) then none
  else some 4

/-! ### Section chain (R185) -/

/-- The body length that a known tag requires fails for this length. -/
def wrongSize (tag n : Nat) : Bool :=
  match tag with
  | 1 => n != 5
  | 2 => n != 274
  | 3 => n != 208
  | 4 => n != 288
  | 5 => n != 24
  | 6 => !within 1 12 n
  | 7 => n != 360
  | 8 => n != 84
  | 9 => n != 16
  | 10 => n != 16
  | _ => false

/-- A tag of the ten known sections. -/
def knownTag (tag : Nat) : Bool := within 1 10 tag

/-- A section with this tag has been met. -/
def metTag (tag : Nat) (met : List (Nat × List Byte)) : Bool := met.any fun e => e.1 == tag

/-- The walk of the section chain over the bytes from offset 5 to the CRC: the known sections met, or a plan
fault code (R185). Each section takes at least three bytes, so the bytes' number bounds the walk. -/
def walkChain : Nat → List Byte → List (Nat × List Byte) → Except Nat (List (Nat × List Byte))
  | 0, _, _ => .error 6
  | fuel + 1, tag :: lo :: hi :: rest, met =>
    let t := tag.toNat
    let n := lo.toNat + 256 * hi.toNat
    if t = 0 then if n = 0 ∧ rest = [] then .ok met else .error 6
    else if rest.length < n then .error 6
    else if knownTag t && metTag t met then .error 7
    else if wrongSize t n then .error 9
    else walkChain fuel (rest.drop n) (if knownTag t then met ++ [(t, rest.take n)] else met)
  | _ + 1, _, _ => .error 6

/-- The body met under a tag. -/
def bodyOf (met : List (Nat × List Byte)) (tag : Nat) : List Byte :=
  ((met.find? fun e => e.1 == tag).map (·.2)).getD []

/-- The ten bodies, or MISSING_SECTION (R185). -/
def imageOf (met : List (Nat × List Byte)) : Except Nat Image :=
  if [1, 2, 3, 4, 5, 6, 7, 8, 9, 10].all fun t => metTag t met then
    .ok { station := bodyOf met 1, corridor := bodyOf met 2, groups := bodyOf met 3,
          conflicts := bodyOf met 4, stages := bodyOf met 5, sequence := bodyOf met 6,
          detectors := bodyOf met 7, patterns := bodyOf met 8, routes := bodyOf met 9,
          signs := bodyOf met 10 }
  else .error 8

/-! ### Fields (R188) -/

namespace Image

def stationNo (m : Image) : Nat := byteAt m.station 0
def tSF (m : Image) : Nat := wordAt m.station 1
def tAR (m : Image) : Nat := wordAt m.station 3

/-- C of the coordinated pattern at place `p`. -/
def cycle (m : Image) (p : Fin 3) : Nat := wordAt m.corridor (2 * p.val)
/-- dist(n, k) as stored, 65 535 for absent. -/
def distRaw (m : Image) (n : RouteId) (k : StationId) : Nat := wordAt m.corridor (6 + 32 * n.val + 2 * k.val)
def lead (m : Image) (n : RouteId) : Nat := byteAt m.corridor (262 + n.val)
def life (m : Image) : Priority → Nat
  | .emergency => byteAt m.corridor 270
  | .transit => byteAt m.corridor 271
def hold (m : Image) : Priority → Nat
  | .emergency => byteAt m.corridor 272
  | .transit => byteAt m.corridor 273

def kindRaw (m : Image) (g : GroupId) : Nat := byteAt m.groups (13 * g.val)
def aspectRaw (m : Image) (g : GroupId) : Nat := byteAt m.groups (13 * g.val + 1)
def tPRE (m : Image) (g : GroupId) : Nat := wordAt m.groups (13 * g.val + 2)
def tMIN (m : Image) (g : GroupId) : Nat := wordAt m.groups (13 * g.val + 4)
def tMAX (m : Image) (g : GroupId) : Nat := wordAt m.groups (13 * g.val + 6)
def tGAP (m : Image) (g : GroupId) : Nat := wordAt m.groups (13 * g.val + 8)
def tCLR (m : Image) (g : GroupId) : Nat := wordAt m.groups (13 * g.val + 10)
def recallFlag (m : Image) (g : GroupId) : Bool := byteAt m.groups (13 * g.val + 12) != 0
def isVehicle (m : Image) (g : GroupId) : Bool := m.kindRaw g == 0
def isWalk (m : Image) (g : GroupId) : Bool := m.kindRaw g == 1
def isUsed (m : Image) (g : GroupId) : Bool := m.isVehicle g || m.isWalk g

def conflictRow (m : Image) (g : GroupId) : GroupSet := setAt m.conflicts (2 * g.val)
/-- tIG(a→b) as stored, 255 for absent. -/
def igRaw (m : Image) (a b : GroupId) : Nat := byteAt m.conflicts (32 + 16 * a.val + b.val)
def conflict (m : Image) (a b : GroupId) : Bool := BitSet.has (m.conflictRow a) b

def stageSet (m : Image) (t : StageId) : GroupSet := setAt m.stages (2 * t.val)

/-- The sequence list, its numbers as stages. -/
def sequenceList (m : Image) : List StageId := m.sequence.filterMap fun b => numbered 12 b.toNat
/-- The stages with a held force-off point: those of the list after the main stage, the main stage apart
(R187). -/
def heldStages (m : Image) : List StageId :=
  match m.sequenceList with
  | [] => []
  | main :: rest => rest.filter fun t => t != main

def detByte (m : Image) (d : LocalId) (k : Nat) : Nat := byteAt m.detectors (11 * d.val + k)
def detKind (m : Image) (d : LocalId) : Option DetKind :=
  match m.detByte d 0 with
  | 1 => some .presence
  | 2 => some .pulse
  | 3 => some .button
  | 4 => some .claim
  | 5 => some .checkout
  | _ => none
def detCalls (m : Image) (d : LocalId) : GroupSet := setAt m.detectors (11 * d.val + 3)
def detExtends (m : Image) (d : LocalId) : GroupSet := setAt m.detectors (11 * d.val + 5)
def detRoute (m : Image) (d : LocalId) : Option RouteId := numbered 8 (m.detByte d 9)

def remoteSource (m : Image) (r : RemoteId) : Nat := byteAt m.detectors (264 + 6 * r.val)
def remoteInput (m : Image) (r : RemoteId) : Option LocalId :=
  numbered 24 (byteAt m.detectors (264 + 6 * r.val + 1))
def remoteCalls (m : Image) (r : RemoteId) : GroupSet := setAt m.detectors (264 + 6 * r.val + 2)
def remoteExtends (m : Image) (r : RemoteId) : GroupSet := setAt m.detectors (264 + 6 * r.val + 4)
def remoteUsed (m : Image) (r : RemoteId) : Bool := m.remoteSource r != 255

def ofs (m : Image) (p : Fin 3) : Nat := wordAt m.patterns (28 * p.val)
def pREL (m : Image) (p : Fin 3) : Nat := wordAt m.patterns (28 * p.val + 2)
def pFO (m : Image) (p : Fin 3) (t : StageId) : Nat := wordAt m.patterns (28 * p.val + 4 + 2 * t.val)

def routeStageRaw (m : Image) (n : RouteId) : Nat := byteAt m.routes (2 * n.val)
def routeCheckoutRaw (m : Image) (n : RouteId) : Nat := byteAt m.routes (2 * n.val + 1)
/-- The route passes the own station (7.1). -/
def routePasses (m : Image) (n : RouteId) : Bool :=
  (List.finRange 16).any fun k : StationId => k.val == m.stationNo && m.distRaw n k != 65535

def signSource (m : Image) (k : SignId) : Option SignSource :=
  let arg := byteAt m.signs (2 * k.val + 1)
  match byteAt m.signs (2 * k.val) with
  | 0 => some .none
  | 1 => (numbered 16 arg).map .groupGreen
  | 2 => (numbered 16 arg).map .groupNotRed
  | 3 => (numbered 16 arg).map .callWaiting
  | 4 => (numbered 8 arg).map .claimServing
  | 5 => some .claimServingAny
  | 6 => some .flashing
  | _ => none

/-- The largest clearance time of the table (codes 17, 20). -/
def largestIG (m : Image) : Nat :=
  (List.finRange 16).foldl (fun x a => (List.finRange 16).foldl (fun y b =>
    if m.igRaw a b == 255 then y else max y (m.igRaw a b)) x) 0

/-- The largest tCLR of any group that holds one (code 20). -/
def largestCLR (m : Image) : Nat :=
  (List.finRange 16).foldl (fun x g => if m.isUsed g then max x (m.tCLR g) else x) 0

/-! ### Content checks (R190), each true when it passes -/

/-- A held number of a local detector is in range. -/
def detectorValues (m : Image) (d : LocalId) : Bool :=
  decide (m.detByte d 0 ≤ 5) &&
    match m.detKind d with
    | some .claim => (m.detRoute d).isSome && decide (m.detByte d 10 ≤ 1)
    | some .checkout => (m.detRoute d).isSome
    | some .presence | some .pulse | some .button | none => true

/-- A held number of a remote detector is in range. -/
def remoteValues (m : Image) (r : RemoteId) : Bool :=
  !m.remoteUsed r || (decide (m.remoteSource r ≤ 15) && (m.remoteInput r).isSome)

/-- The held numbers of a coordinated pattern are in range of its own C. -/
def patternValues (m : Image) (p : Fin 3) : Bool :=
  within 400 2400 (m.cycle p) && decide (m.ofs p < m.cycle p) && within 1 (m.cycle p - 1) (m.pREL p) &&
    m.heldStages.all fun t => within 1 (m.cycle p - 1) (m.pFO p t)

/-- VALUE_RANGE. -/
def valueRange (m : Image) : Bool :=
  decide (m.stationNo ≤ 15) && allFin m.patternValues &&
  allFin (fun g => decide (m.kindRaw g ≤ 2) && (!m.isUsed g || decide (m.aspectRaw g ≤ 2))) &&
  m.sequence.all (fun b => (numbered 12 b.toNat).isSome) &&
  allFin m.detectorValues && allFin m.remoteValues &&
  allFin (fun n => !m.routePasses n || decide (m.routeStageRaw n ≤ 12)) &&
  allFin fun k => (m.signSource k).isSome

/-- The held times of a group are in range (4.3). -/
def groupTimes (m : Image) (g : GroupId) : Bool :=
  if m.isVehicle g then
    within 0 30 (m.tPRE g) && within 40 600 (m.tMIN g) && within 100 1200 (m.tMAX g) &&
      within 10 99 (m.tGAP g) && within 30 60 (m.tCLR g) && decide (m.tMIN g ≤ m.tMAX g)
  else if m.isWalk g then
    within 0 30 (m.tPRE g) && within 40 300 (m.tMIN g) && within 40 300 (m.tCLR g)
  else true

/-- The held times of a local detector are in range (R109). -/
def detectorTimes (m : Image) (d : LocalId) : Bool :=
  (m.detKind d).isNone ||
    (within 0 25 (m.detByte d 1) && within 1 60 (m.detByte d 7) && within 0 24 (m.detByte d 8))

/-- TIMER_RANGE. -/
def timerRange (m : Image) : Bool :=
  within 50 600 m.tSF && within 20 100 m.tAR && allFin m.groupTimes &&
  allFin (fun a => allFin fun b => m.igRaw a b == 255 || within 0 150 (m.igRaw a b)) &&
  allFin m.detectorTimes &&
  allFin (fun n => allFin fun k => m.distRaw n k == 65535 || within 0 255 (m.distRaw n k)) &&
  allFin (fun n => within 0 60 (m.lead n)) &&
  [Priority.emergency, .transit].all fun q => within 10 255 (m.life q) && within 5 60 (m.hold q)

/-- WALK_GROUP. -/
def walkGroups (m : Image) : Bool :=
  allFin fun g => !m.isWalk g || (m.tPRE g == 0 && m.aspectRaw g != 0)

/-- CONFLICT_MATRIX. -/
def conflictMatrix (m : Image) : Bool :=
  allFin fun a => allFin fun b =>
    !m.conflict a b || (m.conflict b a && a != b && m.isUsed a && m.isUsed b)

/-- CLEARANCE_TABLE. -/
def clearanceTable (m : Image) : Bool :=
  allFin fun a => allFin fun b => (m.igRaw a b != 255) == m.conflict a b

/-- STAGE_CONTENT. -/
def stageContent (m : Image) : Bool :=
  allFin fun t => allFin fun a => !BitSet.has (m.stageSet t) a ||
    (m.isUsed a && allFin fun b => !(BitSet.has (m.stageSet t) b && m.conflict a b))

/-- SEQUENCE. -/
def sequenceOk (m : Image) : Bool :=
  !repeats (fun a b => a == b) m.sequenceList && m.sequenceList.all fun t => m.stageSet t != 0

/-- ALL_RED_SHORT. -/
def allRedLong (m : Image) : Bool := decide (m.largestIG ≤ m.tAR)

/-- RELEASE_POINT. -/
def releasePoint (m : Image) : Bool :=
  allFin fun p => m.heldStages.all fun t => decide (m.pREL p < m.pFO p t)

/-- A list of positions strictly increases. -/
def rising : List Nat → Bool
  | a :: b :: l => decide (a < b) && rising (b :: l)
  | _ => true

/-- FORCE_OFF_ORDER. -/
def forceOffOrder (m : Image) : Bool := allFin fun p => rising (m.heldStages.map (m.pFO p))

/-- CYCLE_TOO_SHORT passes. -/
def cycleLong (m : Image) : Bool :=
  allFin fun p =>
    match m.heldStages.getLast? with
    | none => true
    | some t => decide (m.pFO p t + m.largestCLR + m.largestIG ≤ m.cycle p)

/-- A list of groups names no UNUSED group. -/
def listOk (m : Image) (l : GroupSet) : Bool := allFin fun g => !BitSet.has l g || m.isUsed g

/-- DETECTOR_LIST. -/
def detectorLists (m : Image) : Bool :=
  allFin (fun d =>
    match m.detKind d with
    | none => true
    | some .claim | some .checkout => m.detCalls d == 0 && m.detExtends d == 0
    | some .presence | some .pulse | some .button => m.listOk (m.detCalls d) && m.listOk (m.detExtends d)) &&
  allFin fun r => !m.remoteUsed r || (m.listOk (m.remoteCalls r) && m.listOk (m.remoteExtends r))

/-- CLAIM_ROUTE. -/
def claimRoutes (m : Image) : Bool :=
  allFin fun d =>
    match m.detKind d with
    | some .claim => (m.detRoute d).any m.routePasses
    | some .presence | some .pulse | some .button | some .checkout | none => true

/-- REMOTE_SELF. -/
def remoteOthers (m : Image) : Bool :=
  allFin fun r => !m.remoteUsed r || m.remoteSource r != m.stationNo

/-- The check-out detector of a route: none, or a CHECKOUT detector of that route. -/
def checkoutOk (m : Image) (n : RouteId) : Bool :=
  m.routeCheckoutRaw n == 0 ||
    match numbered 24 (m.routeCheckoutRaw n) with
    | none => false
    | some d => m.detKind d == some .checkout && m.detRoute d == some n

/-- ROUTE_STAGE. -/
def routeStages (m : Image) : Bool :=
  allFin fun n => !m.routePasses n ||
    ((match numbered 12 (m.routeStageRaw n) with
      | none => false
      | some t => m.stageSet t != 0) && m.checkoutOk n)

/-- SIGN_SOURCE. -/
def signSources (m : Image) : Bool :=
  allFin fun k =>
    match m.signSource k with
    | some (.groupGreen g) | some (.groupNotRed g) | some (.callWaiting g) => m.isUsed g
    | some .none | some (.claimServing _) | some .claimServingAny | some .flashing | none => true

/-- The plan fault code of the content checks, in code order; none when all pass (R190). -/
def contentCode (m : Image) : Option Nat :=
  if !m.valueRange then some 10
  else if !m.timerRange then some 11
  else if !m.walkGroups then some 12
  else if !m.conflictMatrix then some 13
  else if !m.clearanceTable then some 14
  else if !m.stageContent then some 15
  else if !m.sequenceOk then some 16
  else if !m.allRedLong then some 17
  else if !m.releasePoint then some 18
  else if !m.forceOffOrder then some 19
  else if !m.cycleLong then some 20
  else if !m.detectorLists then some 21
  else if !m.claimRoutes then some 22
  else if !m.remoteOthers then some 23
  else if !m.routeStages then some 24
  else if !m.signSources then some 25
  else none

/-! ### The plan (R187, R189, R191) -/

/-- The plan part of a group; what is not held reads 0, and of an UNUSED group its times and flash aspect are not
held (R60, R186, R187). -/
def groupPlan (m : Image) (g : GroupId) : GroupPlan :=
  let aspect : FlashAspect := match m.aspectRaw g with
    | 0 => .amber
    | 1 => .red
    | _ => .dark
  if m.isVehicle g then
    { kind := .vehicle, aspect := aspect, tPRE := m.tPRE g, tMIN := m.tMIN g, tMAX := m.tMAX g,
      tGAP := m.tGAP g, tCLR := m.tCLR g, recallFlag := m.recallFlag g }
  else if m.isWalk g then
    { kind := .walk, aspect := aspect, tPRE := m.tPRE g, tMIN := m.tMIN g, tMAX := 0, tGAP := 0,
      tCLR := m.tCLR g, recallFlag := m.recallFlag g }
  else
    { kind := .unused, aspect := .amber, tPRE := 0, tMIN := 0, tMAX := 0, tGAP := 0, tCLR := 0,
      recallFlag := m.recallFlag g }

/-- The mode of a local detector with what it holds beside it: a route in CLAIM and CHECKOUT, a priority in CLAIM
(R109, R187). -/
def detMode (m : Image) (d : LocalId) : DetKind → DetMode
  | .presence => .presence
  | .pulse => .pulse
  | .button => .button
  | .claim => .claim ((m.detRoute d).getD 0) (if m.detByte d 10 = 0 then .emergency else .transit)
  | .checkout => .checkout ((m.detRoute d).getD 0)

/-- The definition of a local detector (R109). -/
def localDef (m : Image) (d : LocalId) : Option LocalDef :=
  (m.detKind d).map fun kind =>
    { mode := m.detMode d kind, tDF := m.detByte d 1, locking := m.detByte d 2 != 0, calls := m.detCalls d
      extends_ := m.detExtends d, tMP := m.detByte d 7, tMSL := m.detByte d 8 }

/-- The definition of a remote detector (R123). -/
def remoteDef (m : Image) (r : RemoteId) : Option RemoteDef :=
  if m.remoteUsed r then
    some { station := Fin.ofNat 16 (m.remoteSource r), input := (m.remoteInput r).getD 0
           calls := m.remoteCalls r, extends_ := m.remoteExtends r }
  else none

/-- The own points of a coordinated pattern; a point that is not held reads 0 (R40, R187). -/
def patternDef (m : Image) (p : Fin 3) : PatternDef :=
  { ofs := m.ofs p, pREL := m.pREL p
    pFO := .tab fun t => if m.heldStages.contains t then m.pFO p t else 0 }

/-- The local route section; nothing is held of a route that does not pass (R129, R187). -/
def routeDef (m : Image) (n : RouteId) : RouteDef :=
  if m.routePasses n then
    { stage := numbered 12 (m.routeStageRaw n), checkout := numbered 24 (m.routeCheckoutRaw n) }
  else { stage := none, checkout := none }

/-- The plan that an image gives (R191), its fingerprint over the CORRIDOR body as stored (R189). -/
def plan (m : Image) : Plan :=
  { station := Fin.ofNat 16 m.stationNo
    fingerprint := crc16 m.corridor
    tSF := m.tSF, tAR := m.tAR
    cycleLength := .tab m.cycle
    dist := .tab fun n => .tab fun k => if m.distRaw n k = 65535 then none else some (m.distRaw n k)
    lead := .tab m.lead
    lifeEmergency := m.life .emergency, lifeTransit := m.life .transit
    holdEmergency := m.hold .emergency, holdTransit := m.hold .transit
    groups := .tab m.groupPlan
    conflicts := .tab m.conflictRow
    clearance := .tab fun a => .tab fun b => if m.igRaw a b = 255 then none else some (m.igRaw a b)
    stages := .tab m.stageSet
    sequence := m.sequenceList
    local_ := .tab m.localDef
    remote := .tab m.remoteDef
    patterns := .tab m.patternDef
    routes := .tab m.routeDef
    signs := .tab fun k => (m.signSource k).getD .none }

end Image

/-- The image CRC matches its last two bytes, low byte first (R185). -/
def imageCrcOk (bytes : List Byte) (len : Nat) : Bool :=
  halfBytes (crc16 (bytes.take (len - 2))) == (bytes.drop (len - 2)).take 2

/-- The checks of CHECKING in their order: CRC, chain, contents; the plan, or the plan fault code (R185,
R190). -/
def checkImage (bytes : List Byte) : Except Nat Plan :=
  let len := imageLength bytes
  if imageCrcOk bytes len then
    match walkChain len ((bytes.drop 5).take (len - 7)) [] with
    | .error e => .error e
    | .ok met =>
      match imageOf met with
      | .error e => .error e
      | .ok m =>
        match m.contentCode with
        | some e => .error e
        | none => .ok m.plan
  else .error 5

end Sys2Proof.Machine
end

