-- ==== Sys2Proof/Machine/PlanRead.lean ====
section
/-! DEFINITION. Machine/PlanRead.lean: the reading of the plan memory block by block, the end of the read, and the load. -/

namespace Sys2Proof.Machine

/-! ### Transfers (R183) -/

/-- The bytes of the block at the next block start: the first block whole, later ones to the image length
(R183, R184). -/
def PlanRead.blockSize (r : PlanRead) : Nat :=
  if r.nextBlock = 0 then blockLength else min blockLength (imageLength r.buffer - r.nextBlock)

/-- A transfer starts at the next block start. -/
def PlanRead.startTransfer (r : PlanRead) : PlanRead :=
  { r with port := transferItems r.nextBlock r.blockSize, attempt := some 0 }

/-- The read begins (R184). -/
def PlanRead.begin (r : PlanRead) : PlanRead := { r with readState := .reading }.startTransfer

/-- A transfer is under way. -/
def State.transferring (s : State) : Bool :=
  s.ctrl.mode == .loading && s.planRead.readState == .reading && !s.planRead.port.isEmpty

/-- The block's bytes are stored, and the next transfer begins or CHECKING does (R183, R184). -/
def PlanRead.store (data : List Byte) (r : PlanRead) : PlanRead :=
  let buffer := r.buffer ++ data
  let next := r.nextBlock + blockLength
  let r1 := { r with buffer := buffer.take (imageLength buffer), nextBlock := next, retry := 0 }
  if imageLength buffer ≤ next then
    { r1 with readState := .checking, port := [], attempt := none, checkAge := some 0 }
  else r1.startTransfer

/-! ### The end of the read (R172, R191) -/

/-- The plan read controller's own state when the read has ended: the next block start and the retry count keep
their last values (log 43). -/
def PlanRead.finish (st : ReadState) (r : PlanRead) : PlanRead :=
  { r with readState := st, buffer := [], port := [], attempt := none, checkAge := none }

/-- The read fails with a plan fault code (R172, R190, R191). -/
def State.planFault (s : State) (code : Nat) : State :=
  let s1 := { s with planRead := s.planRead.finish .failed, ctrl := { s.ctrl with planFault := code } }
  ((s1.addReason .plan).enterMode .faultFlash).react

/-- The plan is written into every block (R191) with the effects of the first entry to CHECK: the own peer
entry SELF (R35), the line in LISTEN (R18), the start hold at 0 (R42), the detector filters starting (R111). -/
def State.writePlan (s : State) (p : Plan) : State :=
  { s with
    plan := some p
    planRead := s.planRead.finish .loaded
    peers := s.peers.upd p.station fun e => { e with presence := .self }
    line := { s.line with st := .listen, listenCount := 0 }
    cycle := { s.cycle with startHold := 0 }
    dets := .tab fun d => { s.dets.nth d with filt := 0, level := false, initial := false } }

/-- The load succeeds (R172, R191). -/
def State.planLoad (s : State) (p : Plan) : State := ((s.writePlan p).enterMode .check).react

/-! ### Commands -/

/-- A header test fails after the first transfer, which has succeeded (R183, R184). -/
def State.headerFault (s : State) (code : Nat) : State :=
  State.planFault { s with planRead := { s.planRead with nextBlock := blockLength, retry := 0 } } code

/-- What comes of the transfer under way where the data line shows these levels (R183). -/
def State.transferRun (s : State) (levels : List Bool) : TransferEnd :=
  portRun false s.planRead.port levels

/-- The bytes of a transfer that has succeeded are stored, and the header is judged after the first block (R183,
R184). -/
def State.transferDone (s : State) (data : List Byte) : State :=
  let s1 := { s with planRead := s.planRead.store data }
  if s.planRead.nextBlock = 0 then
    match headerCode data with
    | some code => s.headerFault code
    | none => s1
  else s1

/-- A transfer has failed, whatever the cause (R183): both lines are released; the fourth failure in a row ends the
read. -/
def State.transferFailed (s : State) : State :=
  if s.planRead.retry < maxRetries then
    { s with planRead := { s.planRead with retry := s.planRead.retry + 1, port := [] } }
  else s.planFault 1

/-- PLAN_TRANSFER (R183, R184): the transfer under way succeeds on these levels of the data line. -/
def State.planTransfer (s : State) (levels : List Bool) : State :=
  if s.transferring then
    match s.transferRun levels with
    | .done data => s.transferDone data
    | .failed _ => s
  else s

/-- TRANSFER_FAILURE (R183): the transfer under way fails on these levels of the data line. -/
def State.transferFailure (s : State) (levels : List Bool) : State :=
  if s.transferring then
    match s.transferRun levels with
    | .done _ => s
    | .failed _ => s.transferFailed
  else s

/-- The retry pause is over (R183). -/
def State.retryDue (s : State) : Bool :=
  s.ctrl.mode == .loading && s.planRead.readState == .reading && s.planRead.port.isEmpty &&
    s.planRead.attempt.any fun t => decide (tRP ≤ t)

/-- TRANSFER_RETRY (R183). -/
def State.transferRetry (s : State) : State :=
  if s.retryDue then { s with planRead := s.planRead.startTransfer } else s

/-- The checks are under way (R184). -/
def State.checking (s : State) : Bool := s.ctrl.mode == .loading && s.planRead.readState == .checking

/-- PLAN_VALIDATION (R185 to R191). -/
def State.planValidation (s : State) : State :=
  if s.checking then
    match checkImage s.planRead.buffer with
    | .ok p => s.planLoad p
    | .error code => s.planFault code
  else s

/-! ### Meanings -/

/-- PLAN_TRANSFER (R183). -/
def execPlanTransfer (levels : List Bool) (s : State) : Host.Outcome State Fault Refusal := .next (s.planTransfer levels)

/-- TRANSFER_RETRY (R183). -/
def execTransferRetry (s : State) : Host.Outcome State Fault Refusal := .next (s.transferRetry)

/-- PLAN_VALIDATION (R190). -/
def execPlanValidation (s : State) : Host.Outcome State Fault Refusal := .next (s.planValidation)

/-- TRANSFER_FAILURE (R183). -/
def execTransferFailure (levels : List Bool) (s : State) : Host.Outcome State Fault Refusal := .next (s.transferFailure levels)

end Sys2Proof.Machine
end

