-- ==== Sys2Proof/Machine/ModeEvents.lean ====
section
/-! DEFINITION. Machine/ModeEvents.lean: start-up reset and its release, the mode timer's ends, and the panel inputs. -/

namespace Sys2Proof.Machine

/-! ### Start-up reset (R170, R171) -/

/-- What stays at the pins through start-up reset: the raw levels, and the queue and choices of the model. -/
def State.resetAll (s : State) : State :=
  { State.reset with
    pending := s.pending, freeCount := s.freeCount, supplyOk := s.supplyOk, resetPin := s.resetPin
    panel := s.panel
    dets := .tab fun d => { Det.reset with raw := (s.dets.nth d).raw }
    lamps := { Lamps.reset with channels := .tab fun c =>
      { Chan.reset with sense := { raw := (s.lamps.channels.nth c).sense.raw, time := 0, level := some false } } } }

/-- A filter stopped with the supply, its pin as it is (R193; log 24). -/
def Filter.restart (f : Filter) : Filter := { raw := f.raw, time := 0, level := none }

/-- The panel filters stand until the supply reaches its operating level (R193; log 24). -/
def Panel.restart (p : Panel) : Panel :=
  { flash := p.flash.restart, manual := p.manual.restart, advance := p.advance.restart
    faultReset := p.faultReset.restart, patternA := p.patternA.restart, patternB := p.patternB.restart }

/-- START_UP_RESET (R170, R194): at power-on or a fall of the supply at once, on the RESET line when its
filtered level becomes asserted, not again while it stays so. The supply that reaches its operating level, from which
the panel and RESET filters run, and a RESET line that is high hold it no longer; its release is RESET_RELEASE (R193,
R194). -/
def State.startUpReset (s : State) (cause : ResetCause) : State :=
  match cause with
  | .powerOn | .supplyFall =>
    { s.resetAll with supplyOk := false, panel := s.panel.restart, resetPin := s.resetPin.restart }
  | .resetLine held =>
    let s1 := s.sampleReset true held
    if s1.resetPin.asserted && !s.resetPin.asserted then s1.resetAll else s1
  | .supplyReached => { s with supplyOk := true }
  | .resetLineHigh held => s.sampleReset false held

/-- Every panel filter that has taken no level takes the raw one (R193). -/
def Panel.takeInitial (p : Panel) : Panel :=
  { flash := p.flash.takeInitial, manual := p.manual.takeInitial, advance := p.advance.takeInitial
    faultReset := p.faultReset.takeInitial, patternA := p.patternA.takeInitial
    patternB := p.patternB.takeInitial }

/-- What the release of start-up reset starts, but for the mode (R5, R50, R154, R171, R184, R193). -/
def State.released (s : State) : State :=
  { s with
    panel := s.panel.takeInitial
    line := { s.line with frameTimer := some 0 }
    cycle := { s.cycle with
      requested := s.panel.takeInitial.pairValue, pair := s.panel.takeInitial.pairValue, pairTime := 0 }
    planRead := s.planRead.begin }

/-- Nothing holds start-up reset: the filtered RESET level is released and the supply at or above VRST (R194). -/
def State.resetFree (s : State) : Bool := s.supplyOk && s.resetPin.level == some false

/-- Start-up reset is to be released: it is in force, and nothing holds it (R194). -/
def State.releaseDue (s : State) : Bool := s.ctrl.mode == .dark && s.resetFree

/-- RESET_RELEASE (R171, R194): start-up reset is released at the first moment at which nothing holds it. -/
def State.resetRelease (s : State) : State :=
  if s.releaseDue then (s.released.enterMode .loading).react else s

/-! ### The mode timer (R174) -/

/-- tSF or tAR in ticks, 0 without a plan. -/
def State.planTime (s : State) (f : Plan → Nat) : Nat :=
  match s.plan with
  | some p => tenth * f p
  | none => 0

/-- The mode timer has measured `t` ticks. -/
def State.timerReached (s : State) (t : Nat) : Bool := s.ctrl.timer.any fun a => decide (t ≤ a)

/-- tSF has run in START_FLASH (R174). -/
def State.startFlashDue (s : State) : Bool :=
  s.ctrl.mode == .startFlash && s.timerReached (s.planTime (·.tSF))

/-- START_FLASH_END (R174, R175). -/
def State.startFlashEnd (s : State) : State :=
  if s.startFlashDue then (s.enterJudged .allRed).react else s

/-- tAR has run in ALL_RED (R174). -/
def State.allRedDue (s : State) : Bool := s.ctrl.mode == .allRed && s.timerReached (s.planTime (·.tAR))

/-- ALL_RED_END (R174): RUNNING begins with the start change and its grants; a set flash request is judged
then (R175). -/
def State.allRedEnd (s : State) : State :=
  if s.allRedDue then
    let s1 := (s.enterMode .running).react
    if s1.flashRequest then s1.flashSet.react else s1
  else s

/-! ### Panel inputs (R193) -/

/-- MANUAL_CHANGE (R102): the manual flag follows the filtered line, and arbitration is run before stage-end logic
applies again (log 39). -/
def State.manualChange (s : State) (level : Bool) (held : Nat) : State :=
  let s1 := s.sampleManual level held
  if s1.manualFlag = s.manualFlag then s1
  else if s.ctrl.mode = .dark then s1
  else s1.arbitrate.react

/-- ADVANCE_PRESS (R103): a rising edge of the filtered line is a press, in every mode but DARK. -/
def State.advancePress (s : State) (level : Bool) (held : Nat) : State :=
  let s1 := s.sampleAdvance level held
  if s.panel.advance.rises s1.panel.advance && !(s.ctrl.mode == .dark) then s1.advance.react else s1

/-- The flash request is cleared (R175, R176). -/
def State.flashCleared (s : State) : State :=
  match s.ctrl.mode with
  | .running => { s with ctrl := { s.ctrl with wait := false } }
  | .panelFlash => s.enterJudged .allRed
  | .dark | .loading | .check | .startFlash | .allRed | .faultFlash => s

/-- FLASH_REQUEST_CHANGE (R175): judged at each change of its level. -/
def State.flashRequestChange (s : State) (level : Bool) (held : Nat) : State :=
  let s1 := s.sampleFlash level held
  if s1.flashRequest = s.flashRequest then s1
  else if s.ctrl.mode = .dark then s1
  else if s1.flashRequest then s1.flashSet.react
  else s1.flashCleared.react

/-- The fault reset leads out of FAULT_FLASH: PLAN is not a reason (R179). -/
def State.resetClears (s : State) : Bool := s.ctrl.mode == .faultFlash && !s.ctrl.reasons.plan

/-- The reason set is emptied (R179). -/
def State.emptyReasons (s : State) : State :=
  { s with ctrl := { s.ctrl with
      reasons := { conflict := false, redOut := false, selfCheck := false, plan := false }
      firstFault := none } }

/-- A panel fault reset is taken (R179): the orders are given before the change of mode (log 42). -/
def State.faultResetOrders (s : State) : State :=
  let s1 := s.clearLampFlags.detectorFaultReset
  if s.resetClears then (s1.clearLatches.emptyReasons).enterMode .check else s1

/-- PANEL_FAULT_RESET (R179, R193): a rising edge of the filtered line, in every mode but DARK. -/
def State.panelFaultReset (s : State) (level : Bool) (held : Nat) : State :=
  let s1 := s.sampleFaultReset level held
  if s.panel.faultReset.rises s1.panel.faultReset && !(s.ctrl.mode == .dark)
  then s1.faultResetOrders.react else s1

/-! ### Meanings; the panel inputs are asserted while low (R198) -/

/-- START_UP_RESET (R170). -/
def execStartUpReset (cause : ResetCause) (s : State) : Host.Outcome State Fault Refusal := .next (s.startUpReset cause)

/-- RESET_RELEASE (R171). -/
def execResetRelease (s : State) : Host.Outcome State Fault Refusal := .next s.resetRelease

/-- MANUAL_CHANGE (R102). -/
def execManualChange (pin : Bool) (held : Nat) (s : State) : Host.Outcome State Fault Refusal := .next (s.manualChange (activeLow pin) held)

/-- ADVANCE_PRESS (R103). -/
def execAdvancePress (pin : Bool) (held : Nat) (s : State) : Host.Outcome State Fault Refusal := .next (s.advancePress (activeLow pin) held)

/-- START_FLASH_END (R174). -/
def execStartFlashEnd (s : State) : Host.Outcome State Fault Refusal := .next (s.startFlashEnd)

/-- ALL_RED_END (R174). -/
def execAllRedEnd (s : State) : Host.Outcome State Fault Refusal := .next (s.allRedEnd)

/-- FLASH_REQUEST_CHANGE (R175). -/
def execFlashRequestChange (pin : Bool) (held : Nat) (s : State) : Host.Outcome State Fault Refusal := .next (s.flashRequestChange (activeLow pin) held)

/-- PANEL_FAULT_RESET (R179). -/
def execPanelFaultReset (pin : Bool) (held : Nat) (s : State) : Host.Outcome State Fault Refusal := .next (s.panelFaultReset (activeLow pin) held)

end Sys2Proof.Machine
end

