-- ==== Sys2Proof/Machine/Clock.lean ====
section
/-! DEFINITION. Machine/Clock.lean: the passing of one tick of 16 µs, and the events that the device's own timers bring about (log 1, 3, 4, 6). -/

namespace Sys2Proof.Machine

/-! ### One tick, block by block -/

/-- The panel filters run in every mode, through start-up reset too, while the supply is at its level (R193). -/
def Panel.tick (p : Panel) : Panel :=
  { flash := p.flash.tick tPF, manual := p.manual.tick tPF, advance := p.advance.tick tPF
    faultReset := p.faultReset.tick tPF, patternA := p.patternA.tick tPF, patternB := p.patternB.tick tPF }

/-- A group's time in state, gap timer and max timer (R60, R71, R73). -/
def State.tickGroup (s : State) (g : GroupId) : Group :=
  let r := s.groups.nth g
  { r with
    time := min (r.time + 1) (tenth * saturation)
    gap := if r.state == .green && s.gapTimed g && !r.gapped && !s.extended g then r.gap - 1 else r.gap
    maxLeft := if r.state == .green && r.maxRunning then r.maxLeft - 1 else r.maxLeft }

/-- A channel's sense filter, settle time and the timings of its two checks (R154, R155, R160). -/
def Chan.tick (phase : Bool) (c : Chan) : Chan :=
  { c with
    sense := c.sense.tick tSNF
    settle := c.settle.map fun t => min (t + 1) tSET
    unTime := if c.unRuns phase then min (c.unTime + 1) tUO else c.unTime
    loTime := if c.loRuns phase then min (c.loTime + 1) tLO else c.loTime }

/-- The lamp block (R154 to R160, R165). -/
def State.tickLamps (s : State) : Lamps :=
  { s.lamps with
    channels := .tab fun c => (s.lamps.channels.nth c).tick s.lamps.phase
    pairs := .tab fun a => .tab fun b =>
      let t := (s.lamps.pairs.nth a).nth b
      if decide (a < b) && s.pairLit a b then min (t + 1) tCF else t
    greens := .tab fun g => if s.greenLit g then min (s.lamps.greens.nth g + 1) tGF else s.lamps.greens.nth g
    reds := .tab fun g => if s.redDark g then min (s.lamps.reds.nth g + 1) tRO else s.lamps.reds.nth g
    selfTime := if s.lamps.selfCheck = .running then min (s.lamps.selfTime + 1) tCK else s.lamps.selfTime }

/-- A defined detector's filter and timings (R110, R112, R119, R120, R126). -/
def Det.tick (d : Det) : Det :=
  { d with
    filt := d.filt + 1
    pulse := d.pulse.map (· + 1)
    presence := d.presence.map (· + 1)
    silence := d.silence.map (· + 1)
    active := d.active.map (· + 1) }

/-- A claim table entry's timers (R136, R140, R143). -/
def ClaimEntry.tick (e : ClaimEntry) : ClaimEntry :=
  { e with remaining := e.remaining - 1, life := e.life - 1, hold := e.hold.map (· - 1) }

/-- The claim unit's timers; entries cleared from now on take a later place (R131). -/
def Claims.tick (c : Claims) : Claims :=
  { c with
    table := c.table.map ClaimEntry.tick
    own := c.own.map fun o => { o with life := o.life - 1 }
    clearPlace := none }

/-- The line interface's timers, one tick being one bit time (R5, R6, R11, R19; log 6, 7). -/
def Line.tick (l : Line) : Line :=
  { l with
    frameTimer := l.frameTimer.map (· + 1)
    pending := l.pending.map fun q => { q with age := q.age + 1 }
    markDrive := l.markDrive.map (· - 1)
    sending := l.sending.map (· + 1)
    run := l.run.map (· + 1)
    recessive := if l.run.isSome then 0 else min (l.recessive + 1) tFRM }

/-- The plan read's timings (R183, R184). -/
def PlanRead.tick (r : PlanRead) : PlanRead :=
  { r with attempt := r.attempt.map (· + 1), checkAge := r.checkAge.map (· + 1) }

/-- One tick passes. In start-up reset the panel and RESET filters run once the supply is at its level (R193, R194),
and the time in DARK is measured from the reset (R82); every other timing stands (R171). -/
def State.tick (s : State) : State :=
  let s1 := { s with
    panel := if s.supplyOk then s.panel.tick else s.panel
    resetPin := if s.supplyOk then s.resetPin.tick tRF else s.resetPin
    groups := .tab s.tickGroup }
  if s.ctrl.mode = .dark then s1
  else
    { s1 with
      planRead := s.planRead.tick
      ctrl := { s.ctrl with timer := s.ctrl.timer.map (· + 1) }
      line := s.line.tick
      cycle := { s.cycle with pairTime := min (s.cycle.pairTime + 1) tPS }
      dets := .tab fun d => if (s.localDef d).isSome then (s.dets.nth d).tick else s.dets.nth d
      claims := s.claims.tick
      lamps := s.tickLamps
      diag := s.diag.map fun r => { r with elapsed := r.elapsed + 1 } }

/-! ### Events that are due (log 3) -/

/-- An event where its condition holds. -/
def dueIf (b : Bool) (e : Instr) : List Instr := if b then [e] else []

/-- Panel and RESET filters whose raw level has held for the filter time (R193, R194). -/
def State.dueInputs (s : State) : List Instr :=
  let p := s.panel
  dueIf (p.flash.due tPF) (.flashRequestChange (activeLow p.flash.raw) p.flash.time) ++
  dueIf (p.manual.due tPF) (.manualChange (activeLow p.manual.raw) p.manual.time) ++
  dueIf (p.advance.due tPF) (.advancePress (activeLow p.advance.raw) p.advance.time) ++
  dueIf (p.faultReset.due tPF) (.panelFaultReset (activeLow p.faultReset.raw) p.faultReset.time) ++
  dueIf (p.patternA.due tPF) (.patternLineChange .a (activeLow p.patternA.raw) p.patternA.time) ++
  dueIf (p.patternB.due tPF) (.patternLineChange .b (activeLow p.patternB.raw) p.patternB.time) ++
  dueIf (s.resetPin.due tRF && s.resetPin.raw) (.startUpReset (.resetLine s.resetPin.time)) ++
  dueIf (s.resetPin.due tRF && !s.resetPin.raw) (.startUpReset (.resetLineHigh s.resetPin.time)) ++
  dueIf s.releaseDue .resetRelease

/-- Events of the group times (R61, R66). -/
def State.dueGroup (s : State) (g : GroupId) : List Instr :=
  dueIf (s.clearToOpen g) (.openGrant g) ++ dueIf (s.prepareDue g) (.prepareEnd g) ++
  dueIf (s.minGreenDue g) (.minGreenEnd g) ++ dueIf (s.gapDue g) (.gapOut g) ++
  dueIf (s.maxDue g) (.maxDone g) ++ dueIf (s.clearingDue g) (.clearingEnd g)

/-- Events of a local detector (R110 to R112, R119, R120). -/
def State.dueDetector (s : State) (d : LocalId) : List Instr :=
  match s.localDef d with
  | none => []
  | some f =>
    let r := s.dets.nth d
    dueIf (r.initialDue f) (.initialLevel d) ++
    dueIf (r.edgeDue f && !r.level) (.detectorRisingEdge d) ++
    dueIf (r.edgeDue f && r.level) (.detectorFallingEdge d) ++
    dueIf r.pulseDue (.pulseOccupancyEnd d) ++
    dueIf (r.stuckDue f) (.faultStuck d) ++ dueIf (r.silentDue f) (.faultSilent d)

/-- Events of a claim table entry (R136, R140, R143). -/
def State.dueClaim (s : State) (e : ClaimEntry) : List Instr :=
  dueIf (s.leadReached e) (.claimReady e.origin e.serial) ++
  dueIf e.arrivalDue (.claimArrived e.origin e.serial) ++
  dueIf e.holdDue (.holdEnd e.origin e.serial) ++
  dueIf e.lifeDue (.claimLifetimeEnd e.origin e.serial)

/-- Events of a channel (R154, R155, R160). -/
def State.dueChannel (s : State) (c : ChanId) : List Instr :=
  let ch := s.lamps.channels.nth c
  dueIf (ch.sense.due tSNF) (.senseChange c ch.sense.raw ch.sense.time) ++
  dueIf ch.settleDue (.settleEnd c) ++
  dueIf ch.unDue (.uncommandedOn c) ++ dueIf ch.loDue (.lampOut c)

/-- Events of the latches, while they are clear (R156 to R158, R162). -/
def State.dueLatches (s : State) : List Instr :=
  (if s.lamps.conflict.isSome then [] else
    (List.finRange 16).flatMap (fun a => (List.finRange 16).flatMap fun b =>
      dueIf (s.conflictDue a b) (.conflict a b)) ++
    (List.finRange 16).flatMap fun g => dueIf (s.greenDue g) (.greenInFlash g)) ++
  if s.lamps.redOut.isSome then []
  else (List.finRange 16).flatMap fun g => dueIf (s.redDue g) (.redOut g)

/-- The checks of CHECKING end now: their time within tVAL is free (R184; log 27). -/
def State.validationDue (s : State) : Bool :=
  s.checking && s.planRead.checkAge.any fun t => decide (min (Config.checkingTime s.freeCount) tVAL ≤ t)

/-- Events of the modes, the self-check, the pattern timing and the plan read (R50, R165, R174, R183, R184). -/
def State.dueStation (s : State) : List Instr :=
  dueIf s.startFlashDue .startFlashEnd ++ dueIf s.allRedDue .allRedEnd ++
  dueIf s.selfPassDue .selfCheckPass ++ dueIf s.selfSettleDue .selfCheckSettleEnd ++
  dueIf s.patternDue .requestedPatternChange ++ dueIf s.retryDue .transferRetry ++
  dueIf s.validationDue .planValidation

/-- The line does not look at the level in OFF and STUCK, so expiry and boundary follow from the timer (R7). -/
def LineState.deaf : LineState → Bool
  | .off | .stuck => true
  | .listen | .active | .silentFault => false

/-- Events of the line that do not hang on what others put on it (R5 to R7, R11, R13), and of the diagnostic
port (R195). -/
def State.dueLine (s : State) : List Instr :=
  let l := s.line
  dueIf (l.st.deaf && l.pending.isNone && l.reached tFRM) (.frameTimerExpiry { run := none, reaches := false }) ++
  dueIf (l.st.deaf && l.pending.any fun q => decide (tJW ≤ q.age)) .joinWindowClose ++
  dueIf (l.markDrive == some 0) .markDriveEnd ++
  dueIf s.sendDue .recordTransmission ++ dueIf s.ownSlotOver .ownSlotEnd ++
  dueIf s.replyDue .diagReplyEnd

/-- Every event that the state alone shows to be due at this moment (log 3, 4). -/
def State.dueEvents (s : State) : List Instr :=
  s.dueInputs ++
    if s.ctrl.mode = .dark then []
    else
      (List.finRange 16).flatMap s.dueGroup ++ (List.finRange 24).flatMap s.dueDetector ++
      s.claims.table.flatMap s.dueClaim ++ (List.finRange 56).flatMap s.dueChannel ++
      s.dueLatches ++ s.dueStation ++ s.dueLine

/-- An empty queue: one event that is due is put in it, a free choice where there are several; where none is,
one tick passes (log 1, 3). -/
def State.idle (s : State) : State :=
  match s.dueEvents with
  | [] => s.tick
  | [e] => { s with pending := [e] }
  | e :: l =>
    let d := s.draw (l.length + 1)
    { d.2 with pending := [(e :: l).getD d.1 e] }

end Sys2Proof.Machine
end

