-- ==== Sys2Proof/Machine/Dispatch.lean ====
section
/-! DEFINITION. Machine/Dispatch.lean: one arm for each command: its meaning. -/

namespace Sys2Proof.Machine

/-- The effect of a command on everything but the queue. -/
def exec (i : Instr) (s : State) : Host.Outcome State Fault Refusal :=
  match i with
  | .startUpReset cause => Sys2Proof.Machine.execStartUpReset cause s
  | .resetRelease => Sys2Proof.Machine.execResetRelease s
  | .frameTimerExpiry line => Sys2Proof.Machine.execFrameTimerExpiry line s
  | .markDriveEnd => Sys2Proof.Machine.execMarkDriveEnd s
  | .dominantRunEnd len startEdge => Sys2Proof.Machine.execDominantRunEnd len startEdge s
  | .joinWindowClose => Sys2Proof.Machine.execJoinWindowClose s
  | .lineStuck run => Sys2Proof.Machine.execLineStuck run s
  | .frameSlip => Sys2Proof.Machine.execFrameSlip s
  | .recordTransmission => Sys2Proof.Machine.execRecordTransmission s
  | .recordTransmissionEnd => Sys2Proof.Machine.execRecordTransmissionEnd s
  | .collision readback => Sys2Proof.Machine.execCollision readback s
  | .ownSlotEnd => Sys2Proof.Machine.execOwnSlotEnd s
  | .silentFaultHoldEnd => Sys2Proof.Machine.execSilentFaultHoldEnd s
  | .listenEnd => Sys2Proof.Machine.execListenEnd s
  | .stuckEnd => Sys2Proof.Machine.execStuckEnd s
  | .slotSilent slot => Sys2Proof.Machine.execSlotSilent slot s
  | .slotReception slot pos levels further => Sys2Proof.Machine.execSlotReception slot pos levels further s
  | .peerClassification peer chars => Sys2Proof.Machine.execPeerClassification peer chars s
  | .peerLost peer => Sys2Proof.Machine.execPeerLost peer s
  | .peerAbsent peer => Sys2Proof.Machine.execPeerAbsent peer s
  | .startHoldEnd => Sys2Proof.Machine.execStartHoldEnd s
  | .unsetWaitEnd => Sys2Proof.Machine.execUnsetWaitEnd s
  | .divergenceAdoption => Sys2Proof.Machine.execDivergenceAdoption s
  | .patternLineChange line pin held => Sys2Proof.Machine.execPatternLineChange line pin held s
  | .requestedPatternChange => Sys2Proof.Machine.execRequestedPatternChange s
  | .openGrant g => Sys2Proof.Machine.execOpenGrant g s
  | .prepareEnd g => Sys2Proof.Machine.execPrepareEnd g s
  | .minGreenEnd g => Sys2Proof.Machine.execMinGreenEnd g s
  | .gapOut g => Sys2Proof.Machine.execGapOut g s
  | .maxDone g => Sys2Proof.Machine.execMaxDone g s
  | .clearingEnd g => Sys2Proof.Machine.execClearingEnd g s
  | .manualChange pin held => Sys2Proof.Machine.execManualChange pin held s
  | .advancePress pin held => Sys2Proof.Machine.execAdvancePress pin held s
  | .detectorInputChange d pin => Sys2Proof.Machine.execDetectorInputChange d pin s
  | .initialLevel d => Sys2Proof.Machine.execInitialLevel d s
  | .detectorRisingEdge d => Sys2Proof.Machine.execDetectorRisingEdge d s
  | .detectorFallingEdge d => Sys2Proof.Machine.execDetectorFallingEdge d s
  | .pulseOccupancyEnd d => Sys2Proof.Machine.execPulseOccupancyEnd d s
  | .faultStuck d => Sys2Proof.Machine.execFaultStuck d s
  | .faultSilent d => Sys2Proof.Machine.execFaultSilent d s
  | .withdrawalDetected origin serial => Sys2Proof.Machine.execWithdrawalDetected origin serial s
  | .claimReady origin serial => Sys2Proof.Machine.execClaimReady origin serial s
  | .claimArrived origin serial => Sys2Proof.Machine.execClaimArrived origin serial s
  | .holdEnd origin serial => Sys2Proof.Machine.execHoldEnd origin serial s
  | .claimLifetimeEnd origin serial => Sys2Proof.Machine.execClaimLifetimeEnd origin serial s
  | .flashPhaseChange => Sys2Proof.Machine.execFlashPhaseChange s
  | .senseChange ch level held => Sys2Proof.Machine.execSenseChange ch level held s
  | .settleEnd ch => Sys2Proof.Machine.execSettleEnd ch s
  | .conflict a b => Sys2Proof.Machine.execConflict a b s
  | .greenInFlash g => Sys2Proof.Machine.execGreenInFlash g s
  | .redOut g => Sys2Proof.Machine.execRedOut g s
  | .uncommandedOn ch => Sys2Proof.Machine.execUncommandedOn ch s
  | .lampOut ch => Sys2Proof.Machine.execLampOut ch s
  | .selfCheckPass => Sys2Proof.Machine.execSelfCheckPass s
  | .startFlashEnd => Sys2Proof.Machine.execStartFlashEnd s
  | .allRedEnd => Sys2Proof.Machine.execAllRedEnd s
  | .flashRequestChange pin held => Sys2Proof.Machine.execFlashRequestChange pin held s
  | .panelFaultReset pin held => Sys2Proof.Machine.execPanelFaultReset pin held s
  | .planTransfer levels => Sys2Proof.Machine.execPlanTransfer levels s
  | .transferRetry => Sys2Proof.Machine.execTransferRetry s
  | .planValidation => Sys2Proof.Machine.execPlanValidation s
  | .stationQuery levels => Sys2Proof.Machine.execStationQuery s levels
  | .groupsQuery levels => Sys2Proof.Machine.execGroupsQuery s levels
  | .detectorsQuery levels => Sys2Proof.Machine.execDetectorsQuery s levels
  | .peersQuery levels => Sys2Proof.Machine.execPeersQuery s levels
  | .claimsQuery levels => Sys2Proof.Machine.execClaimsQuery s levels
  | .faultsQuery levels => Sys2Proof.Machine.execFaultsQuery s levels
  | .countsQuery levels => Sys2Proof.Machine.execCountsQuery s levels
  | .errorReply levels => Sys2Proof.Machine.execErrorReply levels s
  | .diagFramingError levels => Sys2Proof.Machine.execDiagFramingError s levels
  | .diagCharacterIgnored levels => Sys2Proof.Machine.execDiagCharacterIgnored levels s
  | .diagReplyEnd => Sys2Proof.Machine.execDiagReplyEnd s
  | .transferFailure levels => Sys2Proof.Machine.execTransferFailure levels s
  | .selfCheckSettleEnd => Sys2Proof.Machine.execSelfCheckSettleEnd s

end Sys2Proof.Machine
end

