-- ==== Sys2Proof/Machine/Step.lean ====
section
/-! DEFINITION. Machine/Step.lean: one step: the command at the front of the queue, or, on an empty queue, what the device does by itself (log 1). -/

namespace Sys2Proof.Machine

/-- The command at the front of the queue is carried out on the state with the queue's rest; on an empty queue
an event that is due is queued, or one tick passes. -/
def step (s : State) : Host.Outcome State Fault Refusal :=
  match s.pending with
  | [] => .next s.idle
  | c :: rest => exec c { s with pending := rest }

/-- The command that a word of the table spells is put at the front of the queue; no row has bits, so no word
spells one (log 30). -/
def State.withFetchWord (s : State) (nbits w : Nat) : State :=
  match decodeTableWord nbits w with
  | none => s
  | some c => { s with pending := c :: s.pending }

end Sys2Proof.Machine
end

