-- ==== Sys2Proof/Machine/Pins.lean ====
section
/-! DEFINITION. Machine/Pins.lean: what stands at the device's output pins, as views of the state (R198; log 29, 31). -/

namespace Sys2Proof.Machine

/-! ### The corridor driver (R1, R6, R11) -/

/-- The device drives the corridor line dominant: its mark, or a 0 bit of the record it sends. -/
def State.drivesDominant (s : State) : Bool :=
  s.line.markDrive.isSome || s.line.sentBit == some false

/-! ### Switch outputs, FAULT and ACT -/

/-- A switch output is on (R151). -/
def State.switchedOn (s : State) (c : ChanId) : Bool := !(s.ctrl.mode == .dark) && (s.lamps.channels.nth c).output

/-- The level at a switch output's pin, true being high: on is driven low, off is released (R198). -/
def State.switchPin (s : State) (c : ChanId) : Bool := activeLow (s.switchedOn c)

/-- The FAULT output is asserted (R164). -/
def State.faultOutput (s : State) : Bool :=
  match s.ctrl.mode with
  | .dark => false
  | .faultFlash => true
  | .loading | .check | .startFlash | .allRed | .running | .panelFlash => s.anySticky && s.lamps.phase

/-- The level at the FAULT pin: asserted is driven low (R198). -/
def State.faultPin (s : State) : Bool := activeLow s.faultOutput

/-- The ACT output level (R21). -/
def State.actOutput (s : State) : Bool := s.act

/-! ### Diagnostic transmit (R195, R198) -/

/-- The bits of the reply under way, in the order sent; none while no reply is. -/
def State.diagBits (s : State) : List Bool :=
  match s.diag with
  | none => []
  | some r => recordBits r.chars

/-- The level of the diagnostic transmit pin, true being high, in bit time `n` of the reply, or before its first
start bit where `n` is none: low for a 0, and high at rest, before and after the reply, in start-up reset and after
a reply is cut off. -/
def State.diagPin (s : State) (n : Option Nat) : Bool :=
  match n with
  | none => true
  | some i => s.diagBits.getD i true

/-! ### Plan memory port (R183) -/

/-- What the device does to the two open-drain lines at one phase: true releases the line, false holds it low. -/
structure PortPhase where
  clock : Bool
  data : Bool
  deriving DecidableEq, Repr

/-- One bit: the data line moves while the clock line is low and stands while it is high. -/
def bitPhases (b : Bool) : List PortPhase :=
  [{ clock := false, data := b }, { clock := true, data := b }, { clock := false, data := b }]

/-- The bits of a byte, most significant first. -/
def portBits (b : Byte) : List Bool := (List.range 8).map fun i => b.getLsbD (7 - i)

/-- A start condition: the data line falls while the clock line is high. -/
def startPhases : List PortPhase :=
  [{ clock := true, data := true }, { clock := true, data := false }, { clock := false, data := false }]

/-- A stop condition: the data line rises while the clock line is high. -/
def stopPhases : List PortPhase :=
  [{ clock := false, data := false }, { clock := true, data := false }, { clock := true, data := true }]

/-- The phases of a bus item. A byte written is followed by a ninth bit in which the device leaves the data line to
the memory; for a byte read it leaves the data line for eight bits, and holds it low in the ninth to acknowledge. -/
def PortItem.phases : PortItem → List PortPhase
  | .start => startPhases
  | .repeatedStart => { clock := false, data := true } :: startPhases
  | .write b => (portBits b).flatMap bitPhases ++ bitPhases true
  | .read acknowledge => (List.replicate 8 true).flatMap bitPhases ++ bitPhases !acknowledge
  | .stop => stopPhases

/-- The phases of the transfer under way; none while both lines are released. -/
def State.portPhases (s : State) : List PortPhase := s.planRead.port.flatMap PortItem.phases

/-- The level of an open-drain line with its pull-up: low where the device or the memory holds it low. -/
def openDrain (device memory : Bool) : Bool := device && memory

/-- Both lines of the plan memory port are released (R183, R192). -/
def State.portReleased (s : State) : Bool := s.planRead.port.isEmpty

end Sys2Proof.Machine
end

