-- ==== Sys2Proof/Safety.lean ====
section
/-! DEFINITION. Safety.lean: the laws that the device keeps, as conditions on a state, and what an event may leave untouched. -/

namespace Sys2Proof.Machine

/-! ### Laws -/

/-- R178: while a latch is set the station mode is FAULT_FLASH. -/
def State.latchSafe (s : State) : Prop :=
  s.lamps.conflict.isSome = true ∨ s.lamps.redOut.isSome = true → s.ctrl.mode = .faultFlash

/-- Before the first entry to CHECK no plan is held and the line is OFF; while the line is OFF nothing is
sent, no SILENT_FAULT is in force and every peer is ABSENT (R18, R30, R172). -/
def State.loadSafe (s : State) : Prop :=
  (s.ctrl.mode = .dark ∨ s.ctrl.mode = .loading → s.plan = none ∧ s.line.st = .off) ∧
  (s.line.st = .off → s.line.sending = none ∧ s.line.txEnd = none ∧ s.line.sfKind = .none ∧
    ∀ k, (s.peers.nth k).presence = .absent)

/-- R63: the conflict matrix is symmetric, and no group conflicts with itself. -/
def State.conflictsSymmetric (s : State) : Prop :=
  ∀ a b, s.conflicts a b = true → s.conflicts b a = true ∧ a ≠ b

/-- R66: no two groups marked conflicting are both in states other than RED, FLASHING and DARK; without a plan
no group is in such a state (R79). -/
def State.conflictSafe (s : State) : Prop :=
  s.conflictsSymmetric ∧
  (s.plan = none → ∀ g, (s.groups.nth g).state.rightOfWay = false) ∧
  ∀ a b, s.conflicts a b = true →
    ¬ ((s.groups.nth a).state.rightOfWay = true ∧ (s.groups.nth b).state.rightOfWay = true)

/-- R41: a SET clock has a coordinated active pattern and a position below its C; an UNSET clock's position
reads 0. The cycle lengths of a loaded plan are above 0 (R40). -/
def State.cycleSafe (s : State) : Prop :=
  (∀ p, s.plan = some p → ∀ i, 0 < p.cycleLength.nth i) ∧
  (s.cycle.set = false → s.cycle.position = 0) ∧
  (s.cycle.set = true → ∃ p, s.plan = some p ∧ s.cycle.active ≠ 0 ∧ s.cycle.position < p.cOf s.cycle.active)

/-- R130, R132: at most two own claims, no two on one route; at most eight entries, no two of one identity. -/
def State.claimsSafe (s : State) : Prop :=
  s.claims.own.length ≤ 2 ∧ (s.claims.own.map (·.route)).Nodup ∧
  s.claims.table.length ≤ 8 ∧ (s.claims.table.map fun e => (e.origin, e.serial)).Nodup

/-- R139, R141: all SERVING entries have one local stage, that stage is the service stage the sequencer has
received, outside RUNNING no entry is SERVING, and a sequencer out of IDLE has that stage as its target; a change
not yet committed holds no replacement target (R84). -/
def State.serviceSafe (s : State) : Prop :=
  (∀ e ∈ s.claims.table, e.state = .serving → s.seq.service = some e.stage) ∧
  (s.seq.service.isSome = true → ∃ e ∈ s.claims.table, e.state = .serving) ∧
  (s.ctrl.mode ≠ .running → ∀ e ∈ s.claims.table, e.state ≠ .serving) ∧
  (∀ c, s.seq.service = some c → s.seq.st = .idle ∨ s.seq.st.target = some c) ∧
  (∀ r, s.seq.st = .change r → r.committed = false → r.replacement = none)

/-- R11, R13: the device drives the corridor line in ACTIVE alone; a timed SILENT_FAULT stands in
SILENT_FAULT or STUCK. -/
def State.driveSafe (s : State) : Prop :=
  (s.line.markDrive.isSome = true ∨ s.line.sending.isSome = true → s.line.st = .active) ∧
  (s.line.sfKind = .timed → s.line.st = .silentFault ∨ s.line.st = .stuck)

/-- R85, R89, R176: outside RUNNING the sequencer is IDLE with both flags clear, and no flash entry wait is in
force. -/
def State.sequencerSafe (s : State) : Prop :=
  s.ctrl.mode ≠ .running →
    s.seq.st = .idle ∧ s.seq.release = false ∧ s.seq.forceOff = false ∧ s.ctrl.wait = false

/-- R174: the mode timer runs in START_FLASH and ALL_RED and is stopped in every other mode. -/
def State.timerSafe (s : State) : Prop :=
  s.ctrl.timer.isSome = true ↔ s.ctrl.mode = .startFlash ∨ s.ctrl.mode = .allRed

/-- R60: a held OPEN exists in RED and CLEARING alone, a held CLOSE in PREPARE and GREEN alone, and the items of
a green period are clear outside GREEN. R73: max-done is never set before min-done, nor before the max timer has
started. -/
def Group.regular (r : Group) : Prop :=
  (r.held = .open → r.state = .red ∨ r.state = .clearing) ∧
  (r.held = .close → r.state = .prepare ∨ r.state = .green) ∧
  (r.state ≠ .green →
    r.minDone = false ∧ r.gapped = false ∧ r.gap = 0 ∧ r.maxRunning = false ∧ r.maxLeft = 0 ∧ r.maxDone = false) ∧
  (r.maxDone = true → r.minDone = true ∧ r.maxRunning = true)

/-- R60, R73 for all sixteen groups. -/
def State.groupsRegular (s : State) : Prop := ∀ g, (s.groups.nth g).regular

/-- R75 to R79: while the force input is DARK or FLASHING every group stands in the forced state with no request held,
and while it is NONE in neither of the two; R59: but an UNUSED group of a loaded plan stays DARK in every mode. -/
def State.forceSafe (s : State) : Prop :=
  ∀ g,
    (s.plan ≠ none → (s.groupPlan g).kind = .unused → (s.groups.nth g).state = .dark) ∧
    (s.plan = none ∨ (s.groupPlan g).kind ≠ .unused →
      (s.ctrl.mode.force = .dark → (s.groups.nth g).state = .dark ∧ (s.groups.nth g).held = .none) ∧
      (s.ctrl.mode.force = .flashing → (s.groups.nth g).state = .flashing ∧ (s.groups.nth g).held = .none) ∧
      (s.ctrl.mode.force = .none → (s.groups.nth g).state ≠ .dark ∧ (s.groups.nth g).state ≠ .flashing))

/-- R28: the last good record is absent in an ABSENT or SELF entry and present in every other. -/
def State.recordsSafe (s : State) : Prop :=
  ∀ k, (s.peers.nth k).record = none ↔
    (s.peers.nth k).presence = .absent ∨ (s.peers.nth k).presence = .self

/-! ### What an event leaves -/

/-- `t` differs from `s` at most in the groups, the sequencer, the locking callers, the claim unit, the lamps,
the station mode with its timer and wait, and the model's count of free choices: what can follow an event at
its own moment. Everything else stands. -/
def State.follows (s t : State) : Prop :=
  t.pending = s.pending ∧ t.supplyOk = s.supplyOk ∧ t.resetPin = s.resetPin ∧ t.panel = s.panel ∧
  t.planRead = s.planRead ∧ t.plan = s.plan ∧ t.line = s.line ∧ t.peers = s.peers ∧ t.latched = s.latched ∧
  t.act = s.act ∧ t.cycle = s.cycle ∧ t.dets = s.dets ∧ t.remotes = s.remotes ∧ t.diag = s.diag ∧
  t.ctrl.reasons = s.ctrl.reasons ∧ t.ctrl.firstFault = s.ctrl.firstFault ∧
  t.ctrl.planFault = s.ctrl.planFault ∧ t.lamps.conflict = s.lamps.conflict ∧
  t.lamps.redOut = s.lamps.redOut ∧ t.lamps.phase = s.lamps.phase ∧ t.lamps.flashCount = s.lamps.flashCount ∧
  t.claims.own = s.claims.own ∧ t.claims.nextSerial = s.claims.nextSerial ∧
  t.claims.refused = s.claims.refused ∧ t.claims.overflow = s.claims.overflow

/-- The cycle unit, the remote detectors and the claim unit, each taking a boundary in turn, in the six orders that
the data book leaves open (log 14). -/
def State.blockOrders (u : State) (p : Plan) (heard : Bool) : List State :=
  [((u.cycleBoundary p heard).remoteBoundary).claimsBoundary p,
   ((u.cycleBoundary p heard).claimsBoundary p).remoteBoundary,
   ((u.remoteBoundary).cycleBoundary p heard).claimsBoundary p,
   ((u.remoteBoundary).claimsBoundary p).cycleBoundary p heard,
   ((u.claimsBoundary p).cycleBoundary p heard).remoteBoundary,
   ((u.claimsBoundary p).remoteBoundary).cycleBoundary p heard]

/-- From `s` with the line record `l` a frame boundary with the timer at `age` bit times and these slot outcomes leads
to `t` (R9): the line interface's own part (R5, R7, R13, R17, R18) and the cycle-mark request (R10, R44), ACT (R21),
the flash generator (R153), the peer table (R29; none is handed on in OFF, R17), then the cycle unit with its notices
(R55, R105), the remote detectors (R123) and the claim unit (R147) with the peer table as evaluated, the latched
flags (R125) and the snapshot (R24). Inputs, plan, detectors and the diagnostic port stand. -/
def State.boundaryTaken (s t : State) (l : Line) (heard : Bool) (age : Nat) (outcome : StationId → Outcome) : Prop :=
  t.line = { l.boundary age with cycleMarkReq := t.line.cycleMarkReq, snapshot := t.snapshotNow } ∧
  t.line.cycleMarkReq = (l.cycleMarkReq && l.pending.isNone ||
    s.plan.any fun p => t.cycle.set && t.cycle.position + 1 == p.cOf t.cycle.active) ∧
  t.line.frameTimer = some age ∧ t.line.pending = none ∧ t.line.sending = none ∧ t.line.txEnd = none ∧
  (∀ k, t.line.outcomes.nth k = none) ∧
  t.act = !s.act ∧
  t.lamps.flashCount = (if s.lamps.flashCount + 1 = 5 then 0 else s.lamps.flashCount + 1) ∧
  t.lamps.phase = (if s.lamps.flashCount + 1 = 5 then !s.lamps.phase else s.lamps.phase) ∧
  (∀ k, t.peers.nth k =
    if l.st = .off then s.peers.nth k else (s.peers.nth k).evaluate s.fingerprint (outcome k)) ∧
  (s.plan = none →
    t = { s with peers := t.peers, line := t.line, act := t.act, lamps := t.lamps }) ∧
  (∀ p, s.plan = some p →
    t.cycle = (State.cycleSteps { s with peers := t.peers } p heard).1 ∧
    (∀ r, t.remotes.nth r = State.remoteValue { s with peers := t.peers } r) ∧
    (∀ d, BitSet.has t.latched.occupancy d = s.occupied d ∧ BitSet.has t.latched.faults d = s.faulted d) ∧
    ∃ w ∈ State.blockOrders (State.flashBoundary { s with
        peers := t.peers, line := l.boundary age, act := !s.act, freeCount := s.freeCount + 1 }) p heard,
      t = { w with line := t.line, latched := t.latched }) ∧
  t.pending = s.pending ∧ t.supplyOk = s.supplyOk ∧ t.resetPin = s.resetPin ∧ t.panel = s.panel ∧
  t.planRead = s.planRead ∧ t.plan = s.plan ∧ t.dets = s.dets ∧ t.diag = s.diag ∧
  t.lamps.conflict = s.lamps.conflict ∧ t.lamps.redOut = s.lamps.redOut

end Sys2Proof.Machine
end

