-- ==== Sys2Proof/Certificates/Slice0/Obligations.lean ====
section
/-! DEFINITION. Certificates/Slice0/Obligations.lean: the statements about the model, for the provers. -/

open Sys2Proof Sys2Proof.Machine

/-! ### The queue and the passing of time -/

/-- A step with a command at the front of the queue is that command's meaning on the state with the queue's rest. -/
def Obligations.StepTakesTheFrontCommand : Prop :=
  ∀ (c : Instr) (rest : List Instr) (s : State),
    s.pending = c :: rest → step s = exec c { s with pending := rest }

/-- The model's choice (log 1, 3): on an empty queue one tick passes where no event is due, and otherwise one of
the events that are due is queued, and nothing else changes but the count of free choices. A tick advances the
group times in every mode (R61, R82), the panel and RESET filters while the supply is at its level (R193, R194), and
every other timing outside DARK alone (R171): the gap timer that no occupied input holds and the max timer (R71,
R73), the detectors' (R110 to R126), the claims' (R136, R140, R143), the mode timer (R174), the line's (R5, R6, R11,
R19), the pair's (R50), the monitor's where their conditions hold, which ChecksSetLatchesAndFlags spells (R154 to
R160, R165), the plan read's (R183, R184) and the diagnostic port's (R195). Ticks of 16 µs are log 6. -/
def Obligations.EmptyQueueTicksOrRaisesADueEvent : Prop :=
  (∀ s : State, s.pending = [] →
    (s.dueEvents = [] → step s = .next s.tick) ∧
    (s.dueEvents ≠ [] → ∃ e ∈ s.dueEvents, ∃ n,
      step s = .next { s with pending := [e], freeCount := n })) ∧
  (∀ (s : State) (g : GroupId), s.tick.groups.nth g =
    { s.groups.nth g with
      time := min ((s.groups.nth g).time + 1) (6250 * 65535)
      gap := if (s.groups.nth g).state = .green ∧ s.gapTimed g = true ∧ (s.groups.nth g).gapped = false ∧
        s.extended g = false then (s.groups.nth g).gap - 1 else (s.groups.nth g).gap
      maxLeft := if (s.groups.nth g).state = .green ∧ (s.groups.nth g).maxRunning = true
        then (s.groups.nth g).maxLeft - 1 else (s.groups.nth g).maxLeft }) ∧
  (∀ s : State,
    (s.supplyOk = false → s.tick.panel = s.panel ∧ s.tick.resetPin = s.resetPin) ∧
    (s.supplyOk = true →
      s.tick.panel =
        { flash := { s.panel.flash with time := min (s.panel.flash.time + 1) 3125 }
          manual := { s.panel.manual with time := min (s.panel.manual.time + 1) 3125 }
          advance := { s.panel.advance with time := min (s.panel.advance.time + 1) 3125 }
          faultReset := { s.panel.faultReset with time := min (s.panel.faultReset.time + 1) 3125 }
          patternA := { s.panel.patternA with time := min (s.panel.patternA.time + 1) 3125 }
          patternB := { s.panel.patternB with time := min (s.panel.patternB.time + 1) 3125 } } ∧
      s.tick.resetPin = { s.resetPin with time := min (s.resetPin.time + 1) 63 }) ∧
    (s.ctrl.mode = .dark →
      s.tick = { s with panel := s.tick.panel, resetPin := s.tick.resetPin, groups := s.tick.groups })) ∧
  (∀ s : State, s.ctrl.mode ≠ .dark →
    s.tick = { s with
      panel := s.tick.panel, resetPin := s.tick.resetPin, groups := s.tick.groups
      planRead := { s.planRead with
        attempt := s.planRead.attempt.map (· + 1), checkAge := s.planRead.checkAge.map (· + 1) }
      ctrl := { s.ctrl with timer := s.ctrl.timer.map (· + 1) }
      line := { s.line with
        frameTimer := s.line.frameTimer.map (· + 1)
        pending := s.line.pending.map fun q => { q with age := q.age + 1 }
        markDrive := s.line.markDrive.map (· - 1), sending := s.line.sending.map (· + 1)
        run := s.line.run.map (· + 1)
        recessive := if s.line.run.isSome then 0 else min (s.line.recessive + 1) 6250 }
      cycle := { s.cycle with pairTime := min (s.cycle.pairTime + 1) 125000 }
      dets := s.tick.dets
      claims := { s.claims with
        table := s.claims.table.map fun e =>
          { e with remaining := e.remaining - 1, life := e.life - 1, hold := e.hold.map (· - 1) }
        own := s.claims.own.map fun o => { o with life := o.life - 1 }
        clearPlace := none }
      lamps := s.tick.lamps
      diag := s.diag.map fun r => { r with elapsed := r.elapsed + 1 } } ∧
    (∀ d, s.tick.dets.nth d =
      if (s.localDef d).isSome then
        { s.dets.nth d with
          filt := (s.dets.nth d).filt + 1, pulse := (s.dets.nth d).pulse.map (· + 1)
          presence := (s.dets.nth d).presence.map (· + 1), silence := (s.dets.nth d).silence.map (· + 1)
          active := (s.dets.nth d).active.map (· + 1) }
      else s.dets.nth d) ∧
    (∀ c, s.tick.lamps.channels.nth c =
      { s.lamps.channels.nth c with
        sense := { (s.lamps.channels.nth c).sense with time := min ((s.lamps.channels.nth c).sense.time + 1) 625 }
        settle := (s.lamps.channels.nth c).settle.map fun n => min (n + 1) 3125
        unTime := if (s.lamps.channels.nth c).settle = none ∧ s.sensed c = true ∧
            (s.lamps.channels.nth c).command.expected s.lamps.phase = false
          then min ((s.lamps.channels.nth c).unTime + 1) 31250 else (s.lamps.channels.nth c).unTime
        loTime := if (s.lamps.channels.nth c).settle = none ∧ s.sensed c = false ∧
            (s.lamps.channels.nth c).command.expected s.lamps.phase = true
          then min ((s.lamps.channels.nth c).loTime + 1) 62500 else (s.lamps.channels.nth c).loTime }) ∧
    (∀ a b, (s.tick.lamps.pairs.nth a).nth b =
      if a < b ∧ s.pairLit a b = true then min ((s.lamps.pairs.nth a).nth b + 1) 12500
      else (s.lamps.pairs.nth a).nth b) ∧
    (∀ g, s.tick.lamps.greens.nth g =
      if s.greenLit g = true then min (s.lamps.greens.nth g + 1) 12500 else s.lamps.greens.nth g) ∧
    (∀ g, s.tick.lamps.reds.nth g =
      if s.redDark g = true then min (s.lamps.reds.nth g + 1) 31250 else s.lamps.reds.nth g) ∧
    s.tick.lamps.selfTime =
      (if s.lamps.selfCheck = .running then min (s.lamps.selfTime + 1) 62500 else s.lamps.selfTime) ∧
    s.tick.lamps = { s.lamps with
      channels := s.tick.lamps.channels, pairs := s.tick.lamps.pairs, greens := s.tick.lamps.greens
      reds := s.tick.lamps.reds, selfTime := s.tick.lamps.selfTime })

/-- The model's choice (log 2): every command completes in every state and leaves the queue, which is the model's own
(log 1), as it is; and a command whose condition does not hold changes nothing, block by block: the modes and the plan
read, the line, the peers and the cycle unit, the groups, the detectors, the claims, and the channels and checks. The
rows that carry a sample of a pin, the end of a run or a cause of start-up reset have no condition: they take what they
carry. The rows of the diagnostic line are in QueriesAreAnswered. -/
def Obligations.EveryCommandCompletesAndLeavesTheQueue : Prop :=
  (∀ (c : Instr) (s : State), ∃ t, exec c s = .next t ∧ t.pending = s.pending) ∧
  (∀ s : State,
    (s.ctrl.mode ≠ .dark ∨ s.supplyOk = false ∨ s.resetPin.level ≠ some false →
      exec .resetRelease s = .next s) ∧
    (∀ levels, (s.ctrl.mode ≠ .loading ∨ s.planRead.readState ≠ .reading ∨ s.planRead.port = [] →
        exec (.planTransfer levels) s = .next s ∧ exec (.transferFailure levels) s = .next s) ∧
      (∀ cause, s.transferRun levels = .failed cause → exec (.planTransfer levels) s = .next s) ∧
      (∀ data, s.transferRun levels = .done data → exec (.transferFailure levels) s = .next s)) ∧
    (s.ctrl.mode ≠ .loading ∨ s.planRead.readState ≠ .reading ∨ s.planRead.port ≠ [] ∨
        (∀ n, s.planRead.attempt = some n → n < 313) → exec .transferRetry s = .next s) ∧
    (s.ctrl.mode ≠ .loading ∨ s.planRead.readState ≠ .checking → exec .planValidation s = .next s) ∧
    (s.ctrl.mode ≠ .startFlash ∨ s.ctrl.timer = none ∨
        (∃ p n, s.plan = some p ∧ s.ctrl.timer = some n ∧ n < 6250 * p.tSF) → exec .startFlashEnd s = .next s) ∧
    (s.ctrl.mode ≠ .allRed ∨ s.ctrl.timer = none ∨
        (∃ p n, s.plan = some p ∧ s.ctrl.timer = some n ∧ n < 6250 * p.tAR) → exec .allRedEnd s = .next s) ∧
    (s.lamps.selfCheck ≠ .running ∨ s.lamps.selfJudging = true ∨ s.lamps.selfTime < 3125 →
      exec .selfCheckSettleEnd s = .next s) ∧
    (s.ctrl.mode ≠ .check ∨ s.lamps.selfCheck ≠ .running ∨ s.lamps.selfJudging = false ∨
        s.lamps.selfTime < 62500 ∨ (∃ c, s.sensed c = true) → exec .selfCheckPass s = .next s) ∧
    (s.ctrl.mode = .dark ∨ s.cycle.pairTime < 125000 ∨ s.cycle.pair = s.cycle.requested →
      exec .requestedPatternChange s = .next s)) ∧
  (∀ s : State,
    (s.line.frameTimer = none ∨ (∃ n, s.line.frameTimer = some n ∧ n < 6250) ∨ s.line.pending ≠ none → ∀ line,
      exec (.frameTimerExpiry line) s = .next s) ∧
    (s.line.markDrive ≠ some 0 → exec .markDriveEnd s = .next s) ∧
    (s.line.pending = none ∨ (∃ q, s.line.pending = some q ∧
        (q.age < 16 ∨ s.line.st.receiving = true ∧ q.run = true)) → exec .joinWindowClose s = .next s) ∧
    (∀ run, s.line.st.receiving = false ∨
        (run ≤ 200 ∧ ∀ q, s.line.pending = some q → q.age < 200 ∨ run + 16 < q.age) →
      exec (.lineStuck run) s = .next s) ∧
    (s.line.st ≠ .stuck ∨ s.line.run ≠ none ∨ s.line.recessive < 6250 → exec .stuckEnd s = .next s) ∧
    (s.line.sending = none → s.line.txEnd ≠ some .judging → exec .frameSlip s = .next s) ∧
    (s.line.st ≠ .active ∨ s.line.sending ≠ none ∨ s.line.txEnd ≠ none ∨ s.line.snapshot = [] ∨ s.plan = none ∨
        (∃ p, s.plan = some p ∧ s.line.frameTimer ≠ some (250 + 360 * p.station.val + 40)) →
      exec .recordTransmission s = .next s) ∧
    (s.line.sending = none ∨ (∃ n, s.line.sending = some n ∧ n < 10 * s.line.snapshot.length) →
      exec .recordTransmissionEnd s = .next s) ∧
    (s.line.sentBit ≠ some false → exec (.collision .recessive) s = .next s) ∧
    (s.line.sentBit ≠ some true → exec (.collision (.dominant none)) s = .next s) ∧
    (∀ run, 24 ≤ run ∨ (s.line.sentBit ≠ some true ∧ s.line.txEnd ≠ some .judging) →
      exec (.collision (.dominant (some run))) s = .next s) ∧
    (s.line.txEnd = none ∨ s.plan = none ∨ s.line.frameTimer = none ∨
        (∃ p n, s.plan = some p ∧ s.line.frameTimer = some n ∧ n < 250 + 360 * (p.station.val + 1)) →
      exec .ownSlotEnd s = .next s) ∧
    (s.line.sfKind ≠ .timed ∨ s.line.sfHold ≠ 599 → exec .silentFaultHoldEnd s = .next s) ∧
    (s.line.st ≠ .listen ∨ s.line.listenCount ≠ 2 → exec .listenEnd s = .next s) ∧
    (∀ k : StationId, s.line.st.receiving = false ∨ s.ownSlot k = true ∨ s.line.outcomes.nth k ≠ none ∨
        s.line.frameTimer = none →
      exec (.slotSilent k) s = .next s ∧
        ∀ pos levels further, exec (.slotReception k pos levels further) s = .next s) ∧
    (∀ (k : StationId) (n : Nat), s.line.frameTimer = some n →
      (n < 250 + 360 * k.val + 120 → exec (.slotSilent k) s = .next s) ∧
      (n < 250 + 360 * (k.val + 1) → ∀ pos levels further,
        exec (.slotReception k pos levels further) s = .next s))) ∧
  (∀ s : State,
    (∀ (k : StationId) (chars : List Byte), goodRecord k chars = none ∨ (s.peers.nth k).presence = .absent ∨
        (s.peers.nth k).presence = .lost ∨ (s.peers.nth k).presence = .self ∨
        ((s.peers.nth k).presence = .heard ∧ (s.peers.nth k).run < 2) →
      exec (.peerClassification k chars) s = .next s) ∧
    (∀ k : StationId, (s.peers.nth k).miss < 9 ∨ ((s.peers.nth k).presence ≠ .present ∧
        (s.peers.nth k).presence ≠ .foreign ∧ (s.peers.nth k).presence ≠ .unfit) →
      exec (.peerLost k) s = .next s) ∧
    (∀ k : StationId, (s.peers.nth k).miss < 49 ∨ (s.peers.nth k).presence ≠ .lost →
      exec (.peerAbsent k) s = .next s) ∧
    (s.plan = none ∨ s.cycle.startHold ≠ 49 → exec .startHoldEnd s = .next s) ∧
    (s.cycle.active = 0 ∨ s.cycle.set = true ∨ s.plan = none ∨
        (∃ p, s.plan = some p ∧ s.cycle.unsetWait + 1 ≠ p.cOf s.cycle.active) → exec .unsetWaitEnd s = .next s) ∧
    (s.plan = none ∨ s.majority = none ∨
        (∃ q, s.majority = some q ∧ (s.cycle.divCandidate ≠ some q ∨ s.cycle.divCount < 3)) →
      exec .divergenceAdoption s = .next s) ∧
    (s.lamps.flashCount ≠ 4 → exec .flashPhaseChange s = .next s)) ∧
  (∀ (s : State) (g : GroupId),
    (s.clearToOpen g = false → exec (.openGrant g) s = .next s) ∧
    ((s.groups.nth g).state ≠ .prepare ∨ (s.groups.nth g).time < 6250 * (s.groupPlan g).tPRE →
      exec (.prepareEnd g) s = .next s) ∧
    ((s.groups.nth g).state ≠ .green ∨ (s.groups.nth g).minDone = true ∨
        (s.groups.nth g).time < 6250 * (s.groupPlan g).tMIN → exec (.minGreenEnd g) s = .next s) ∧
    ((s.groups.nth g).state ≠ .green ∨ s.gapTimed g = false ∨ (s.groups.nth g).gapped = true ∨
        (s.groups.nth g).gap ≠ 0 ∨ s.extended g = true → exec (.gapOut g) s = .next s) ∧
    ((s.groups.nth g).state ≠ .green ∨ (s.groups.nth g).maxRunning = false ∨ (s.groups.nth g).maxDone = true ∨
        (s.groups.nth g).maxLeft ≠ 0 ∨ (s.groups.nth g).minDone = false → exec (.maxDone g) s = .next s) ∧
    ((s.groups.nth g).state ≠ .clearing ∨ (s.groups.nth g).time < 6250 * (s.groupPlan g).tCLR →
      exec (.clearingEnd g) s = .next s)) ∧
  (∀ (s : State) (d : LocalId),
    (∀ pin, (!pin) = (s.dets.nth d).raw → exec (.detectorInputChange d pin) s = .next s) ∧
    (∀ pulse, (s.dets.nth d).pulse = none ∨ ((s.dets.nth d).pulse = some pulse ∧ pulse < 31250) →
      exec (.pulseOccupancyEnd d) s = .next s) ∧
    (s.localDef d = none → exec (.initialLevel d) s = .next s ∧ exec (.detectorRisingEdge d) s = .next s ∧
      exec (.detectorFallingEdge d) s = .next s ∧ exec (.faultStuck d) s = .next s ∧
      exec (.faultSilent d) s = .next s) ∧
    ∀ f, s.localDef d = some f →
      ((s.dets.nth d).initial = true ∨ (s.dets.nth d).filt < 625 * f.tDF → exec (.initialLevel d) s = .next s) ∧
      ((s.dets.nth d).initial = false ∨ (s.dets.nth d).raw = (s.dets.nth d).level ∨
          (s.dets.nth d).filt < 625 * f.tDF →
        exec (.detectorRisingEdge d) s = .next s ∧ exec (.detectorFallingEdge d) s = .next s) ∧
      ((s.dets.nth d).level = true → exec (.detectorRisingEdge d) s = .next s) ∧
      ((s.dets.nth d).level = false → exec (.detectorFallingEdge d) s = .next s) ∧
      ((s.dets.nth d).fault ≠ .normal ∨
          (∀ n, (s.dets.nth d).presence = some n → n < 3750000 * f.tMP) → exec (.faultStuck d) s = .next s) ∧
      ((s.dets.nth d).fault ≠ .normal ∨ (s.dets.nth d).level = true ∨
          (∀ n, (s.dets.nth d).silence = some n → n < 225000000 * f.tMSL) → exec (.faultSilent d) s = .next s)) ∧
  (∀ (s : State) (origin : StationId) (serial : Fin 16),
    ((∀ e ∈ s.claims.table, e.origin = origin → e.serial = serial →
        e.state ≠ .waiting ∨ s.leadTicks e.route < e.remaining) → exec (.claimReady origin serial) s = .next s) ∧
    ((∀ e ∈ s.claims.table, e.origin = origin → e.serial = serial → e.remaining ≠ 0 ∨ e.arrived = true) →
      exec (.claimArrived origin serial) s = .next s) ∧
    ((∀ e ∈ s.claims.table, e.origin = origin → e.serial = serial → e.state ≠ .serving ∨ e.hold ≠ some 0) →
      exec (.holdEnd origin serial) s = .next s) ∧
    ((∀ e ∈ s.claims.table, e.origin = origin → e.serial = serial →
        e.life ≠ 0 ∨ e.state = .cleared ∨ e.state = .expired) →
      exec (.claimLifetimeEnd origin serial) s = .next s) ∧
    ((∀ p, s.plan = some p → ∀ e ∈ s.claims.table, e.origin = origin → e.serial = serial →
        origin = p.station ∨ s.presentRecord origin = none ∨ (s.peers.nth origin).fresh = false ∨ e.miss < 2 ∨
          ∃ rec_, s.presentRecord origin = some rec_ ∧ ∃ c ∈ rec_.claims, c.serial.toFin = serial) →
      exec (.withdrawalDetected origin serial) s = .next s)) ∧
  ∀ (s : State) (c : ChanId) (a b : GroupId),
    ((∀ n, (s.lamps.channels.nth c).settle = some n → n < 3125) → exec (.settleEnd c) s = .next s) ∧
    ((s.lamps.channels.nth c).unTime < 31250 ∨ (s.lamps.channels.nth c).unLive = true →
      exec (.uncommandedOn c) s = .next s) ∧
    ((s.lamps.channels.nth c).loTime < 62500 ∨ (s.lamps.channels.nth c).loLive = true →
      exec (.lampOut c) s = .next s) ∧
    (¬ a < b ∨ s.pairLit a b = false ∨ (s.lamps.pairs.nth a).nth b < 12500 ∨ s.lamps.conflict ≠ none →
      exec (.conflict a b) s = .next s) ∧
    (s.greenLit a = false ∨ s.lamps.greens.nth a < 12500 ∨ s.lamps.conflict ≠ none →
      exec (.greenInFlash a) s = .next s) ∧
    (s.redDark a = false ∨ s.lamps.reds.nth a < 31250 ∨ s.lamps.redOut ≠ none →
      exec (.redOut a) s = .next s)

/-- What follows an event at its own moment. It leaves the inputs, the plan, the line, the peers, the cycle unit, the
detectors, the latches and every counter as they are, and changes the mode at most from RUNNING to PANEL_FLASH. In
it: the calls and timers follow (R71, R73, R115, R117, R118); then, one after another, the lowest-numbered group that
is clear to open leaves RED (R66), and where there is none the sequencer takes its step (R87, R92, R94, R95), calls
and timers following each; then the flash entry wait ends where the count of moving groups is 0 (R80, R176); and the lamps
take their commands (R151). A local detector is occupied by its filtered level, or in mode PULSE while its 0.5 s run
(R112), and counts as occupied while it is in fault (R121); locking calls are made by mode and fault (R115). A group has
a call by its call memory, a non-locking call, a remote call or its recall flag (R114, R116, R123), and its extension
input is occupied by any detector, local or remote, of its extend list (R118). That levels are judged after each event, and how many steps one moment holds, is the
model's choice (log 17); a wait that is over before the groups and the sequencer act may end first (log 15). -/
def Obligations.WhatFollowsAnEventLeavesTheRest : Prop :=
  (∀ s : State, s.follows s.react ∧
    (s.react.ctrl = s.ctrl ∨ (s.ctrl.mode = .running ∧ s.ctrl.wait = true ∧
      s.react.ctrl = { s.ctrl with mode := .panelFlash, timer := none, wait := false }))) ∧
  (∀ s : State, s.react = ((State.settle 64 s.follow.raceWait).endWait).lampSync) ∧
  (∀ (n : Nat) (s : State),
    State.settle 0 s = s ∧
    (∀ u, s.grantStep = some u → State.settle (n + 1) s = State.settle n u.follow) ∧
    (∀ u, s.grantStep = none → s.seqStep = some u → State.settle (n + 1) s = State.settle n u.follow) ∧
    (s.grantStep = none → s.seqStep = none → State.settle (n + 1) s = s)) ∧
  (∀ s : State,
    (∀ g, s.clearToOpen g = true → (∀ h, h < g → s.clearToOpen h = false) → s.grantStep = some (s.leaveRed g)) ∧
    ((∀ g, s.clearToOpen g = false) → s.grantStep = none)) ∧
  (∀ s : State,
    (s.ctrl.wait = true ∧ s.ctrl.mode = .running ∧ s.movingCount = 0 →
      s.endWait = (s.enterMode .panelFlash).follow ∧
      (s.raceWait = { s with freeCount := s.freeCount + 1 } ∨
        s.raceWait = State.endWait { s with freeCount := s.freeCount + 1 })) ∧
    (¬ (s.ctrl.wait = true ∧ s.ctrl.mode = .running ∧ s.movingCount = 0) → s.endWait = s ∧ s.raceWait = s)) ∧
  (∀ (s : State) (g : GroupId),
    s.follow = { s with callers := s.follow.callers, groups := s.follow.groups } ∧
    (∀ d, BitSet.has (s.follow.callers.nth g) d = (BitSet.has (s.callers.nth g) d ||
      (!((s.groups.nth g).state == .green) && s.callsLocking d g))) ∧
    ((s.groups.nth g).state ≠ .green ∨ (s.groupPlan g).kind ≠ .vehicle →
      s.follow.groups.nth g = s.groups.nth g) ∧
    ((s.groups.nth g).state = .green → (s.groupPlan g).kind = .vehicle → s.follow.groups.nth g =
      { s.groups.nth g with
        gap := if s.gapTimed g = true ∧ (s.groups.nth g).gapped = false ∧ s.extended g = true
          then 6250 * (s.groupPlan g).tGAP else (s.groups.nth g).gap
        maxRunning := (s.groups.nth g).maxRunning || s.follow.conflictingCall g
        maxLeft := if (s.groups.nth g).maxRunning = false ∧ s.follow.conflictingCall g = true
          then 6250 * (s.groupPlan g).tMAX else (s.groups.nth g).maxLeft })) ∧
  (∀ (s : State) (d : LocalId),
    (s.occupied d = true ↔ ∃ f, s.localDef d = some f ∧
      ((f.mode = .pulse ∧ (s.dets.nth d).pulse ≠ none) ∨ (f.mode ≠ .pulse ∧ (s.dets.nth d).level = true))) ∧
    (s.faulted d = true ↔ s.localDef d ≠ none ∧ (s.dets.nth d).fault ≠ .normal)) ∧
  (∀ (s : State) (d : LocalId) (g : GroupId),
    s.callsLocking d g = true ↔ ∃ f, s.localDef d = some f ∧ BitSet.has f.calls g = true ∧
      ((f.mode = .presence ∧ f.locking = true ∧ (s.occupied d = true ∨ s.faulted d = true)) ∨
        (f.mode = .pulse ∧ (s.occupied d = true ∨ s.faulted d = true)) ∨
        (f.mode = .button ∧ s.faulted d = true))) ∧
  (∀ (s : State) (r : RemoteId),
    s.remoteOn r = true ↔ s.remoteDef r ≠ none ∧ (s.remotes.nth r = .normal true ∨ s.remotes.nth r = .lost)) ∧
  ∀ (s : State) (g : GroupId),
    (s.hasCall g = true ↔ (∃ d, BitSet.has (s.callers.nth g) d = true) ∨
      (∃ d f, s.localDef d = some f ∧ f.mode = .presence ∧ f.locking = false ∧ BitSet.has f.calls g = true ∧
        (s.occupied d = true ∨ s.faulted d = true)) ∨
      (∃ r f, s.remoteDef r = some f ∧ BitSet.has f.calls g = true ∧ s.remoteOn r = true) ∨
      (s.groupPlan g).recallFlag = true) ∧
    (s.conflictingCall g = true ↔ ∃ h, s.conflicts g h = true ∧ s.hasCall h = true) ∧
    (s.extended g = true ↔
      (∃ d f, s.localDef d = some f ∧ BitSet.has f.extends_ g = true ∧ (s.occupied d = true ∨ s.faulted d = true)) ∨
      ∃ r f, s.remoteDef r = some f ∧ BitSet.has f.extends_ g = true ∧ s.remoteOn r = true) ∧
    (s.gapTimed g = true ↔ (s.groupPlan g).kind = .vehicle ∧
      ((∃ d f, s.localDef d = some f ∧ BitSet.has f.extends_ g = true) ∨
        ∃ r f, s.remoteDef r = some f ∧ BitSet.has f.extends_ g = true)) ∧
    (s.movingCount = 0 ↔ ∀ h, (s.groups.nth h).state ≠ .prepare ∧ (s.groups.nth h).state ≠ .clearing)

/-! ### Start-up reset -/

/-- Power-on, a fall of the supply and the filtered RESET line put every block to its start-up reset values
(R170, R171), the lamp monitor's persistence timings and the self-check's timing not running (R168): the raw pins, the
queue and the model's count of free choices alone stand, and with them the panel levels on the RESET line; on the
supply the panel and RESET filters start afresh (R193). Start-up reset begins where the filtered RESET level becomes
asserted: while it is asserted, a RESET line that is low, however long, moves its filter alone, and so does a RESET
pulse shorter than tRF (R194). What the rules name no value for at reset - the requested pattern, the pair and its timing, what
is known of the line - is the model's (log 23), and so are the filters that stand while the supply is low (log 24). -/
def Obligations.StartUpResetPutsEveryBlockToItsReset : Prop :=
  (∀ (s : State) (cause : ResetCause),
    (cause = .powerOn ∨ cause = .supplyFall ∨ ∃ held, cause = .resetLine held ∧ tRF ≤ held ∧ s.supplyOk = true ∧
      s.resetPin.level ≠ some true) →
    ∃ t, exec (.startUpReset cause) s = .next t ∧
      t.ctrl = Ctrl.reset ∧ t.planRead = PlanRead.reset ∧ t.plan = none ∧ t.line = Line.reset ∧
      (∀ k, t.peers.nth k = Peer.reset) ∧ t.latched = { occupancy := 0, faults := 0 } ∧ t.act = false ∧
      t.cycle = Cycle.reset ∧ (∀ g, t.groups.nth g = Group.reset) ∧ t.seq = Seq.reset ∧
      (∀ d, t.dets.nth d = { Det.reset with raw := (s.dets.nth d).raw }) ∧
      (∀ r, t.remotes.nth r = .unused) ∧ (∀ g, t.callers.nth g = 0) ∧ t.claims = Claims.reset ∧
      (∀ c, t.lamps.channels.nth c =
        { Chan.reset with sense :=
          { raw := (s.lamps.channels.nth c).sense.raw, time := 0, level := some false } }) ∧
      t.lamps.phase = true ∧ t.lamps.flashCount = 0 ∧ t.lamps.conflict = none ∧ t.lamps.redOut = none ∧
      (∀ a b, (t.lamps.pairs.nth a).nth b = 0) ∧ (∀ g, t.lamps.greens.nth g = 0) ∧ (∀ g, t.lamps.reds.nth g = 0) ∧
      t.lamps.selfCheck = .notRun ∧ t.lamps.selfTime = 0 ∧ t.lamps.selfJudging = false ∧
      t.lamps.firstFailing = none ∧ t.lamps.checkPassed = false ∧
      t.diag = none ∧ t.drivesDominant = false ∧ t.faultOutput = false ∧ (∀ c, t.switchedOn c = false) ∧
      t.diagPin none = true ∧
      ((∃ held, cause = .resetLine held) → t.panel = s.panel ∧ t.supplyOk = s.supplyOk ∧
        t.resetPin = { raw := true, time := 63, level := some true }) ∧
      ((∀ held, cause ≠ .resetLine held) → t.supplyOk = false ∧
        t.resetPin = { raw := s.resetPin.raw, time := 0, level := none } ∧
        t.panel.flash = { raw := s.panel.flash.raw, time := 0, level := none } ∧
        t.panel.manual = { raw := s.panel.manual.raw, time := 0, level := none } ∧
        t.panel.advance = { raw := s.panel.advance.raw, time := 0, level := none } ∧
        t.panel.faultReset = { raw := s.panel.faultReset.raw, time := 0, level := none } ∧
        t.panel.patternA = { raw := s.panel.patternA.raw, time := 0, level := none } ∧
        t.panel.patternB = { raw := s.panel.patternB.raw, time := 0, level := none }) ∧
      t.pending = s.pending ∧ t.freeCount = s.freeCount) ∧
  ∀ (s : State) (held : Nat),
    (s.supplyOk = true → held < tRF → exec (.startUpReset (.resetLine held)) s =
      .next { s with resetPin := { raw := true, time := held, level := s.resetPin.level } }) ∧
    (s.supplyOk = true → s.resetPin.level = some true → exec (.startUpReset (.resetLine held)) s =
      .next { s with resetPin := { raw := true, time := min held 63, level := some true } }) ∧
    (s.supplyOk = false → exec (.startUpReset (.resetLine held)) s =
      .next { s with resetPin := { s.resetPin with raw := true } }) ∧
    (s.supplyOk = true → s.resetPin.level = some false → exec (.startUpReset (.resetLineHigh held)) s =
      .next { s with resetPin := { raw := false, time := min held 63, level := some false } })

/-- Start-up reset is released at the first moment at which the supply is at its level and the filtered RESET line
shows it released (R194): the release is due then, and while either still holds it, DARK stays. The supply that
reaches its level, and a RESET line that goes high, filtered over tRF, hold it no longer; the filters stand while the
supply is low (R193; log 24). That they are told as causes of START_UP_RESET is the model's choice (log 45). At the
release the mode becomes LOADING, the frame timer starts, the plan read begins with a transfer of 64 bytes from block
start 0, and the panel levels and the requested pattern are taken from the lines (R171, R193). -/
def Obligations.ResetReleaseStartsLoading : Prop :=
  (∀ s : State, s.ctrl.mode = .dark → s.planRead = PlanRead.reset →
    s.supplyOk = true → s.resetPin.level = some false → .resetRelease ∈ s.dueEvents ∧
    ∃ t, exec .resetRelease s = .next t ∧
      t = State.react (State.enterMode
        { s with panel := t.panel, line := t.line, cycle := t.cycle, planRead := t.planRead } .loading) ∧
      t.ctrl.mode = .loading ∧ t.line = { s.line with frameTimer := some 0 } ∧
      t.planRead = { PlanRead.reset with
        readState := .reading, port := transferItems 0 64, attempt := some 0 } ∧
      t.panel = s.panel.takeInitial ∧
      t.cycle = { s.cycle with
        requested := s.panel.takeInitial.pairValue, pair := s.panel.takeInitial.pairValue, pairTime := 0 } ∧
      t.supplyOk = true ∧ t.resetPin = s.resetPin ∧
      t.plan = s.plan ∧ t.peers = s.peers ∧ t.dets = s.dets ∧ t.act = s.act ∧ t.diag = s.diag) ∧
  (∀ f : Filter,
    f.takeInitial.raw = f.raw ∧ f.takeInitial.time = f.time ∧ f.takeInitial.level = some (f.level.getD f.raw)) ∧
  (∀ s : State, s.supplyOk = false ∨ s.resetPin.level ≠ some false ∨ s.ctrl.mode ≠ .dark →
    exec .resetRelease s = .next s) ∧
  ∀ (s : State) (held : Nat),
    exec (.startUpReset .supplyReached) s = .next { s with supplyOk := true } ∧
    (s.supplyOk = false → exec (.startUpReset (.resetLineHigh held)) s =
      .next { s with resetPin := { s.resetPin with raw := false } }) ∧
    (s.supplyOk = true → exec (.startUpReset (.resetLineHigh held)) s =
      .next { s with resetPin :=
        { raw := false, time := min held 63, level := if 63 ≤ held then some false else s.resetPin.level } })

/-- R192: what the plan read holds after start-up reset, NOT_STARTED up to the release of start-up reset alone, and
that a panel fault reset leaves every item as it is. -/
def Obligations.PlanReadAfterStartUpReset : Prop :=
  State.reset.planRead.readState = .notStarted ∧ State.reset.planRead.buffer = [] ∧
  State.reset.planRead.nextBlock = 0 ∧ State.reset.planRead.retry = 0 ∧ State.reset.ctrl.planFault = 0 ∧
  State.reset.portReleased = true ∧
  (∀ (s : State) (cause : ResetCause),
    (cause = .powerOn ∨ cause = .supplyFall ∨ ∃ held, cause = .resetLine held ∧ tRF ≤ held ∧ s.supplyOk = true ∧
      s.resetPin.level ≠ some true) →
    ∃ t, exec (.startUpReset cause) s = .next t ∧
      t.planRead = State.reset.planRead ∧ t.ctrl.planFault = State.reset.ctrl.planFault) ∧
  (∀ (c : Instr) (s t : State), c ≠ .resetRelease → exec c s = .next t →
    s.planRead.readState = .notStarted → t.planRead.readState = .notStarted) ∧
  (∀ s : State, s.ctrl.mode = .dark → s.supplyOk = true → s.resetPin.level = some false →
    ∃ t, exec .resetRelease s = .next t ∧ t.planRead.readState = .reading) ∧
  ∀ (s : State) (pin : Bool) (held : Nat), ∃ t, exec (.panelFaultReset pin held) s = .next t ∧
    t.planRead = s.planRead ∧ t.ctrl.planFault = s.ctrl.planFault

/-! ### Corridor line -/

/-- The frame timer expires (R6, R7, R10): in ACTIVE on a recessive line, or on a run begun no more than tJW
earlier, the device drives the mark that the request asks for; else, and in every other line state, it does not.
It is boundary-pending in each case, with a run under way where one is received: its own mark is one where it reaches
the line (R1). Once its own mark has been driven it releases the line (R6). Nothing but the line interface changes.
What is on the line is the command's operand (log 9). -/
def Obligations.MarkDriveAtTheExpiry : Prop :=
  (∀ (s : State) (run : Option Nat) (reaches : Bool) (age : Nat),
    s.line.frameTimer = some (6250 + age) → s.line.pending = none →
    (s.line.st = .active → (run = none ∨ ∃ a, run = some a ∧ a ≤ 16) →
      exec (.frameTimerExpiry { run := run, reaches := reaches }) s = .next { s with line := { s.line with
        markDrive := some (if s.line.cycleMarkReq then 96 else 32)
        run := if reaches then some (run.getD 0) else run
        pending := some { age := age, run := run.isSome || reaches } } }) ∧
    (s.line.st = .active → ∀ a, run = some a → 16 < a →
      exec (.frameTimerExpiry { run := run, reaches := reaches }) s = .next { s with line := { s.line with
        run := run, pending := some { age := age, run := true } } }) ∧
    (s.line.st = .listen ∨ s.line.st = .silentFault →
      exec (.frameTimerExpiry { run := run, reaches := reaches }) s = .next { s with line := { s.line with
        run := run, pending := some { age := age, run := run.isSome } } }) ∧
    (s.line.st = .off ∨ s.line.st = .stuck →
      exec (.frameTimerExpiry { run := run, reaches := reaches }) s = .next { s with line := { s.line with
        pending := some { age := age, run := false } } })) ∧
  ∀ s : State, s.line.markDrive = some 0 →
    exec .markDriveEnd s = .next { s with line := { s.line with markDrive := none } }

/-- A run that resolves a pending expiry, and a valid mark wherever it falls, give a frame boundary at the
trailing edge with the frame start at the leading edge (R7, R8, R9): with the outcomes as judged at an expiry,
and those of a cut frame away from one. The receiver takes the run whether or not the device drives (R1). A malformed
run is counted (R3), and a run of 24 bit times or more on the record being sent is a frame slip (R12). The outcomes of
a cut frame where the rules leave them open, and the order of the blocks at a boundary, are the model's (log 10, 12,
14), and so are a record begun inside such a run (log 38) and an expiry taken in OFF or STUCK that is still pending in
LISTEN or SILENT_FAULT (log 46). In `boundaryTaken` the clause on the cycle-mark request, which
keeps a request through a cut frame whose boundary no expiry precedes, is the model's choice too (log 37). A run
resolves a pending expiry that it was under way at or began within tJW after (R7). A slot hands on OWN, the outcome it
was judged to have, or SILENT (R17); of a cut frame the slots that had not ended hand on BAD where the one in progress
had a start edge, and else SILENT (R14). A defined remote detector takes, from its source station's record while that
is PRESENT, occupancy where the source's fault flag is clear, and is REMOTE_LOST in every other case (R123, R124). -/
def Obligations.RunEndGivesAFrameBoundary : Prop :=
  (∀ (l : Line) (len : Nat), l.resolves len = true ↔ ∃ q, l.pending = some q ∧ q.age ≤ len + 16) ∧
  (∀ (s : State) (k : StationId),
    (s.ownSlot k = true ↔ ∃ p, s.plan = some p ∧ p.station = k) ∧
    s.judgedOutcome k = (if s.ownSlot k = true then .own else (s.line.outcomes.nth k).getD .silent) ∧
    ∀ (age : Nat) (edge : Bool), s.cutOutcome age edge k =
      if s.ownSlot k = true then .own
      else if 250 + 360 * (k.val + 1) ≤ age then s.judgedOutcome k
      else if 250 + 360 * k.val ≤ age ∧ edge = true then .bad
      else .silent) ∧
  (∀ (s : State) (r : RemoteId),
    (s.remoteDef r = none → s.remoteValue r = .unused) ∧
    ∀ f, s.remoteDef r = some f →
      (s.presentRecord f.station = none → s.remoteValue r = .lost) ∧
      ∀ q, s.presentRecord f.station = some q →
        (BitSet.has q.faults f.input = true → s.remoteValue r = .lost) ∧
        (BitSet.has q.faults f.input = false → s.remoteValue r = .normal (BitSet.has q.occupancy f.input))) ∧
  ∀ (s : State) (len : Nat) (edge : Bool),
    s.line.st.receiving = true → len ≤ 200 →
    (s.line.resolves len = true ∨ (runClass len).valid = true) →
    ∃ t, exec (.dominantRunEnd len edge) s = .next t ∧
      s.boundaryTaken t
        { s.line with
          run := none, recessive := 0
          malformed := if runClass len = .malformed then s.line.malformed + 1 else s.line.malformed
          slips := if s.line.inRecord = true ∧ 24 ≤ len then s.line.slips + 1 else s.line.slips
          sending := if 24 ≤ len then none else s.line.sending
          txEnd := if s.line.inRecord = true ∧ 24 ≤ len then some .slip else s.line.txEnd }
        (runClass len == .cycleMark) len
        (if s.line.resolves len then s.judgedOutcome
         else s.cutOutcome (s.line.frameTimer.getD 0 - len) edge) ∧
      t.line.malformed = (if runClass len = .malformed then s.line.malformed + 1 else s.line.malformed) ∧
      t.line.slips = (if s.line.inRecord = true ∧ 24 ≤ len then s.line.slips + 1 else s.line.slips) ∧
      t.line.run = none ∧ t.line.recessive = 0

/-- The classes of a dominant run by its whole length (R3). A run away from every expiry that is no valid mark gives
no boundary: a malformed one is counted, and it aborts a record being sent as a frame slip; a shorter one is left
to the receiver (R3, R8, R12), whether or not the device drives (R1). In OFF and STUCK a run is not classified. A
record begun inside a run of 24 bit times or more is log 38. -/
def Obligations.RunClassAndRunsWithoutABoundary : Prop :=
  (∀ n : Nat,
    (runClass n = .short ↔ n ≤ 23) ∧
    (runClass n = .frameMark ↔ 24 ≤ n ∧ n ≤ 48) ∧
    (runClass n = .malformed ↔ (49 ≤ n ∧ n ≤ 79) ∨ (113 ≤ n ∧ n ≤ 200)) ∧
    (runClass n = .cycleMark ↔ 80 ≤ n ∧ n ≤ 112) ∧
    (runClass n = .stuck ↔ 200 < n)) ∧
  (∀ l : Line, l.inRecord = true ↔ l.sending.isSome = true ∨ l.txEnd = some .judging) ∧
  ∀ (s : State) (len : Nat) (edge : Bool),
    (s.line.st.receiving = true → len ≤ 200 → s.line.resolves len = false → (runClass len).valid = false →
      exec (.dominantRunEnd len edge) s = .next { s with line :=
        { s.line with
          run := none, recessive := 0
          malformed := if runClass len = .malformed then s.line.malformed + 1 else s.line.malformed
          slips := if s.line.inRecord = true ∧ 24 ≤ len then s.line.slips + 1 else s.line.slips
          sending := if 24 ≤ len then none else s.line.sending
          txEnd := if s.line.inRecord = true ∧ 24 ≤ len then some .slip else s.line.txEnd } }) ∧
    (s.line.st.receiving = false →
      exec (.dominantRunEnd len edge) s = .next { s with line := { s.line with run := none, recessive := 0 } })

/-- The join window closes tJW after an expiry without a run, and after any expiry in OFF and STUCK: a silent
boundary whose frame start is the expiry; in STUCK every slot but the own is BAD (R7, R14, R19). An ACTIVE device
whose own mark has not reached the line takes it too (R7, R12). That STUCK slots are BAD is DEDUCED (log 10), and the
order of the blocks and an expiry taken in OFF or STUCK that is still pending in LISTEN or SILENT_FAULT are the model's
(log 14, 46). -/
def Obligations.JoinWindowCloseGivesASilentBoundary : Prop :=
  (∀ (s : State) (k : StationId), s.stuckOutcome k = if s.ownSlot k = true then .own else .bad) ∧
  ∀ (s : State) (q : Pending), s.line.pending = some q → 16 ≤ q.age →
    (s.line.st.receiving = true → q.run = false) →
    ∃ t, exec .joinWindowClose s = .next t ∧
      s.boundaryTaken t s.line false q.age (if s.line.st = .stuck then s.stuckOutcome else s.judgedOutcome)

/-- A run that passes tSTK, or an expiry tSTK ago held pending by a run that was under way then or began within tJW
after it, makes the line STUCK with nothing driven; a pending expiry gives its boundary then, and otherwise there is
none (R7, R8, R19). Corner cases are log 11, that the frame in which the line becomes STUCK hands on its outcomes as
judged before is DEDUCED (log 10), and the order of the blocks at the boundary is the model's (log 14). -/
def Obligations.LineStuckReleasesTheLine : Prop :=
  ∀ (s : State) (run : Nat), s.line.st.receiving = true →
    (200 < run ∨ ∃ q, s.line.pending = some q ∧ 200 ≤ q.age ∧ q.age ≤ run + 16) →
    ∃ t, exec (.lineStuck run) s = .next t ∧
      t.line.st = .stuck ∧ t.drivesDominant = false ∧
      (s.line.pending = none →
        t = { s with line := { s.line with
          markDrive := none, sending := none, st := .stuck, run := some run, recessive := 0
          slips := if s.line.inRecord = true then s.line.slips + 1 else s.line.slips
          txEnd := if s.line.inRecord = true then some .slip else s.line.txEnd } }) ∧
      (∀ q, s.line.pending = some q → s.boundaryTaken t
        { s.line with
          markDrive := none, sending := none, st := .stuck, run := some run, recessive := 0
          slips := if s.line.inRecord = true then s.line.slips + 1 else s.line.slips
          txEnd := if s.line.inRecord = true then some .slip else s.line.txEnd }
        false q.age s.judgedOutcome)

/-- When the own slot's lead-in ends in ACTIVE the device begins to send its transmit snapshot (R11), also inside a
mark that is under way there (log 38); in every other line state it sends nothing. A mark on the record being sent, or
on one that its mismatch has stopped, is a frame slip: the record is aborted and the slip counted (R12). While it
sends it drives the line dominant in each start bit and in each bit that is 0, the least significant data bit first,
and not in the stop bits; the mark it drives is dominant, and otherwise the line is released (R1, R2, R6, R11). -/
def Obligations.RecordTransmissionBeginsAndIsCut : Prop :=
  (∀ (s : State) (p : Plan), s.plan = some p →
    s.line.frameTimer = some (250 + 360 * p.station.val + 40) → s.line.sending = none →
    s.line.txEnd = none → s.line.snapshot ≠ [] →
    (s.line.st = .active →
      exec .recordTransmission s = .next { s with line := { s.line with sending := some 0 } }) ∧
    (s.line.st ≠ .active → exec .recordTransmission s = .next s)) ∧
  (∀ s : State, s.line.sending.isSome = true ∨ s.line.txEnd = some .judging →
    exec .frameSlip s = .next { s with line := { s.line with
      sending := none, txEnd := some .slip, slips := s.line.slips + 1, run := some 24, recessive := 0 } }) ∧
  (∀ s : State, (s.line.markDrive.isSome = true → s.drivesDominant = true) ∧
    (s.line.markDrive = none → s.line.sending = none → s.drivesDominant = false)) ∧
  ∀ (s : State) (i : Nat) (b : Byte), s.line.snapshot[i]? = some b → s.line.markDrive = none →
    (s.line.sending = some (10 * i) → s.drivesDominant = true) ∧
    (∀ j, j < 8 → s.line.sending = some (10 * i + 1 + j) → s.drivesDominant = !b.getLsbD j) ∧
    (s.line.sending = some (10 * i + 9) → s.drivesDominant = false)

/-- The last stop bit is sent: a clean transmission, which the own slot's end counts (R11, R13). The level read back is
compared with the bit that is sent, 0 in a start bit, the data bits least significant first, 1 in a stop bit; a mismatch
stops the transmission at once (R2, R12): sent 0 and read recessive, it is a collision and is counted; sent 1 and read
dominant, it is judged by the run that caused it, a collision where that run ends before 24 bit times. A level read as
it was sent changes nothing. At the own slot's end a collision raises the
collision run count, which at 3 gives SILENT_FAULT, timed on the retry budget and permanent without it (R13). A frame
slip leaves the count. That the level read and its run come as operands is log 9. -/
def Obligations.EndOfATransmission : Prop :=
  (∀ l : Line,
    (l.sending = none ∨ (∃ n, l.sending = some n ∧ 10 * l.snapshot.length ≤ n) → l.sentBit = none) ∧
    ∀ i b, l.snapshot[i]? = some b →
      (l.sending = some (10 * i) → l.sentBit = some false) ∧
      (∀ j, j < 8 → l.sending = some (10 * i + 1 + j) → l.sentBit = some (b.getLsbD j)) ∧
      (l.sending = some (10 * i + 9) → l.sentBit = some true)) ∧
  ∀ s : State,
    (∀ n, s.line.sending = some n → 10 * s.line.snapshot.length ≤ n →
      exec .recordTransmissionEnd s =
        .next { s with line := { s.line with sending := none, txEnd := some .clean } }) ∧
    (s.line.sentBit = some false →
      exec (.collision .recessive) s = .next { s with line := { s.line with
        sending := none, txEnd := some .collision, collisions := s.line.collisions + 1 } } ∧
      exec (.collision (.dominant none)) s = .next s ∧
      ∀ run, s.line.txEnd = none → exec (.collision (.dominant (some run))) s = .next s) ∧
    (s.line.sentBit = some true →
      exec (.collision (.dominant none)) s = .next { s with line := { s.line with
        sending := none, txEnd := some .judging } } ∧
      exec (.collision .recessive) s = .next s) ∧
    (∀ run, s.line.sentBit = some true ∨ s.line.txEnd = some .judging →
      (run < 24 → exec (.collision (.dominant (some run))) s = .next { s with line := { s.line with
        sending := none, txEnd := some .collision, collisions := s.line.collisions + 1 } }) ∧
      (24 ≤ run → exec (.collision (.dominant (some run))) s = .next s)) ∧
    (∀ p t0, s.plan = some p → s.line.frameTimer = some t0 → 250 + 360 * (p.station.val + 1) ≤ t0 →
      (s.line.txEnd = some .clean →
        exec .ownSlotEnd s = .next { s with line := { s.line with txEnd := none, collisionRun := 0 } }) ∧
      (s.line.txEnd = some .slip →
        exec .ownSlotEnd s = .next { s with line := { s.line with txEnd := none } }) ∧
      (s.line.txEnd = some .collision → s.line.collisionRun < 2 →
        exec .ownSlotEnd s = .next { s with line := { s.line with
          txEnd := none, collisionRun := s.line.collisionRun + 1 } }) ∧
      (s.line.txEnd = some .collision → 2 ≤ s.line.collisionRun → s.line.st = .active →
        s.line.budget ≠ 0 →
        exec .ownSlotEnd s = .next { s with line := { s.line with
          txEnd := none, collisionRun := 0, st := .silentFault, budget := 0, sfKind := .timed, sfHold := 0
          markDrive := none, sending := none } }) ∧
      (s.line.txEnd = some .collision → 2 ≤ s.line.collisionRun → s.line.st = .active →
        s.line.budget = 0 →
        exec .ownSlotEnd s = .next { s with line := { s.line with
          txEnd := none, collisionRun := 0, st := .silentFault, sfKind := .permanent
          markDrive := none, sending := none } }))

/-- The SILENT_FAULT hold reaches tSFH, the LISTEN count reaches 3, and STUCK ends after tFRM of recessive line:
the line state follows (R13, R18, R19), and nothing but the line interface changes. At the end of STUCK the slots begun
in it are BAD and nothing else of the line moves (R14, R19). The first two rows stand inside a
boundary; given alone they do their own part of it and nothing else (log 5). Each boundary counts them. A transmission
still uncounted is counted at the boundary too, after them: a clean one ends the run of collisions, a collision raises
it, and the third makes the line SILENT_FAULT, timed on the retry budget and permanent without it; that the boundary
counts it is the model's choice (log 12). What the rules leave open of STUCK and of the hold count is log 10, 11 and
13. -/
def Obligations.LineStateTimesEnd : Prop :=
  (∀ s : State,
    (s.line.sfKind = .timed → s.line.sfHold = 599 → s.line.st ≠ .stuck →
      exec .silentFaultHoldEnd s = .next { s with line := { s.line with
        sfHold := 600, sfKind := .none, st := .listen, listenCount := 0 } }) ∧
    (s.line.sfKind = .timed → s.line.sfHold = 599 → s.line.st = .stuck →
      exec .silentFaultHoldEnd s = .next { s with line := { s.line with sfHold := 600, sfKind := .none } }) ∧
    (s.line.st = .listen → s.line.listenCount = 2 →
      exec .listenEnd s = .next { s with line := { s.line with listenCount := 3, st := .active } }) ∧
    (s.line.st = .stuck → s.line.run = none → 6250 ≤ s.line.recessive →
      exec .stuckEnd s = .next { s with line := { s.line with
        st := if s.line.sfKind = .none then .listen else .silentFault
        listenCount := if s.line.sfKind = .none then 0 else s.line.listenCount
        outcomes := .tab fun k =>
          if s.ownSlot k = false ∧ s.line.reached (250 + 360 * k.val) = true then some .bad
          else s.line.outcomes.nth k } })) ∧
  (∀ (l u : Line) (age : Nat), u = Line.boundary age { l with txEnd := none } →
    (l.txEnd = none ∨ l.txEnd = some .slip ∨ l.txEnd = some .judging → l.boundary age = u) ∧
    (l.txEnd = some .clean → l.boundary age = { u with collisionRun := 0 }) ∧
    (l.txEnd = some .collision → l.collisionRun < 2 →
      l.boundary age = { u with collisionRun := l.collisionRun + 1 }) ∧
    (l.txEnd = some .collision → 2 ≤ l.collisionRun → l.budget ≠ 0 →
      l.boundary age = { u with
        collisionRun := 0, st := if u.st = .stuck then .stuck else .silentFault, budget := 0, sfKind := .timed
        sfHold := 0, markDrive := none, sending := none }) ∧
    (l.txEnd = some .collision → 2 ≤ l.collisionRun → l.budget = 0 →
      l.boundary age = { u with
        collisionRun := 0, st := if u.st = .stuck then .stuck else .silentFault, sfKind := .permanent
        markDrive := none, sending := none })) ∧
  ∀ (l : Line) (age : Nat), l.txEnd ≠ some .collision →
    (l.sfKind = .timed → l.sfHold < 599 →
      (l.boundary age).sfHold = l.sfHold + 1 ∧ (l.boundary age).sfKind = .timed ∧ (l.boundary age).st = l.st) ∧
    (l.sfKind = .timed → l.sfHold = 599 → l.st ≠ .stuck →
      (l.boundary age).sfHold = 600 ∧ (l.boundary age).sfKind = .none ∧ (l.boundary age).st = .listen ∧
      (l.boundary age).listenCount = 0) ∧
    (l.sfKind ≠ .timed → l.st = .listen → l.listenCount < 2 →
      (l.boundary age).st = .listen ∧ (l.boundary age).listenCount = l.listenCount + 1) ∧
    (l.sfKind ≠ .timed → l.st = .listen → l.listenCount = 2 →
      (l.boundary age).st = .active ∧ (l.boundary age).listenCount = 3) ∧
    (l.sfKind ≠ .timed → l.st ≠ .listen →
      (l.boundary age).st = l.st ∧ (l.boundary age).sfHold = l.sfHold ∧ (l.boundary age).sfKind = l.sfKind)

/-- A slot that is still open is SILENT when no start edge falls within its first 120 bit times, and at its end
takes the outcome of what was received in it (R14, R15, R17). The levels that the receiver samples are the command's
operand (log 31). -/
def Obligations.SlotsAreJudged : Prop :=
  ∀ (s : State) (k : StationId) (t0 : Nat),
    s.line.st.receiving = true → s.ownSlot k = false → s.line.outcomes.nth k = none →
    s.line.frameTimer = some t0 →
    (250 + 360 * k.val + 120 ≤ t0 → exec (.slotSilent k) s =
      .next { s with line := { s.line with outcomes := s.line.outcomes.put k (some .silent) } }) ∧
    (250 + 360 * (k.val + 1) ≤ t0 → ∀ pos levels further,
      exec (.slotReception k pos levels further) s =
        .next { s with line := { s.line with
          outcomes := s.line.outcomes.put k (some (slotOutcome k (⟨pos, levels⟩ :: further))) } })

/-- A well-framed record that starts within tSS, carries the slot's number and ends with its CRC-16 is GOOD; with
a wrong CRC, a length that its counts do not give, an own-claim count of 3, another station number, a dominant stop
bit, a long gap or a further start edge it is BAD; without an accepted start edge within tSS the slot is SILENT (R14,
R15). An edge whose start bit reads recessive at its middle was noise and is dropped; the eight data bits come the
least significant first, and the stop bit reads recessive (R2). The sampled levels are operands (log 31). -/
def Obligations.GoodSlotOutcome : Prop :=
  (∀ (k : StationId) (r : Record) (edges : List RxEdge), r.claims.length ≤ 2 → r.reports.length ≤ 3 →
    (edges.filter accepted).map rxValue = r.encode →
    ((∀ e ∈ (edges.filter accepted).head?, e.pos ≤ 120) → r.station.toFin = k →
      wellFramed (edges.filter accepted) = true → slotOutcome k edges = .good r) ∧
    (r.station.toFin ≠ k ∨ wellFramed (edges.filter accepted) = false → ∀ q, slotOutcome k edges ≠ .good q)) ∧
  (∀ (k : StationId) (edges : List RxEdge),
    ((∀ e ∈ (edges.filter accepted).head?, 120 < e.pos) → slotOutcome k edges = .silent) ∧
    (∀ e ∈ (edges.filter accepted).head?, e.pos ≤ 120 →
      (wellFramed (edges.filter accepted) = false ∨ goodRecord k ((edges.filter accepted).map rxValue) = none →
        slotOutcome k edges = .bad) ∧
      (∀ r, wellFramed (edges.filter accepted) = true →
        goodRecord k ((edges.filter accepted).map rxValue) = some r → slotOutcome k edges = .good r))) ∧
  (∀ (k : StationId) (chars : List Byte),
    (crcMatches chars = false → goodRecord k chars = none) ∧
    (chars.length < 16 → goodRecord k chars = none) ∧
    (∀ c, chars[4]? = some c → c.extractLsb' 4 2 = 3#2 → goodRecord k chars = none) ∧
    (∀ c, chars[4]? = some c →
      chars.length ≠ 16 + (c.extractLsb' 4 2).toNat + 2 * (c.extractLsb' 6 2).toNat → goodRecord k chars = none)) ∧
  (∀ e : RxEdge, accepted e = !e.levels.getLsbD 0 ∧ stopRecessive e = e.levels.getLsbD 9 ∧
    ∀ i, i < 8 → (rxValue e).getLsbD i = e.levels.getLsbD (i + 1)) ∧
  ∀ l : List RxEdge, wellFramed l = true ↔
    (∀ e ∈ l, stopRecessive e = true ∧ e.pos + 10 < 360) ∧
    ∀ l1 a b l2, l = l1 ++ a :: b :: l2 → b.pos ≤ a.pos + 10 + 20

/-- R16: the CRC-16, and where it is used. -/
def Obligations.Crc16IsComputedBitByBit : Prop :=
  (∀ (reg : Half) (b : Bool), crcBit reg b =
    if Bool.xor b (reg.getLsbD 0) then (reg >>> 1) ^^^ 33800#16 else reg >>> 1) ∧
  (∀ i : Fin 16, (33800#16).getLsbD i.val = (decide (i.val = 15 - 12) || decide (i.val = 15 - 5) ||
    decide (i.val = 15 - 0))) ∧
  (∀ (reg : Half) (b : Byte), crcByte reg b =
    crcBit (crcBit (crcBit (crcBit (crcBit (crcBit (crcBit (crcBit reg (b.getLsbD 0)) (b.getLsbD 1))
      (b.getLsbD 2)) (b.getLsbD 3)) (b.getLsbD 4)) (b.getLsbD 5)) (b.getLsbD 6)) (b.getLsbD 7)) ∧
  crc16 [] = 65535#16 ∧
  (∀ (l : List Byte) (b : Byte), crc16 (l ++ [b]) = crcByte (crc16 l) b) ∧
  (∀ l : List Byte, withCrc l = l ++ [(crc16 l).extractLsb' 0 8, (crc16 l).extractLsb' 8 8]) ∧
  (∀ r : Record, ∃ l, r.encode = withCrc l) ∧
  (∀ (l : List Byte) (a b : Byte), crcMatches (l ++ [a, b]) = true ↔
    a = (crc16 l).extractLsb' 0 8 ∧ b = (crc16 l).extractLsb' 8 8) ∧
  (∀ (l : List Byte) (a b : Byte), imageCrcOk (l ++ [a, b]) (l.length + 2) = true ↔
    a = (crc16 l).extractLsb' 0 8 ∧ b = (crc16 l).extractLsb' 8 8) ∧
  ∀ m : Image, m.plan.fingerprint = crc16 m.corridor

/-- Decoding a station record's characters gives back every field, for every record with at most two own claims
and three service reports; its length is 16 characters plus the claims and twice the reports (R22, R26, R27). The
staged record carries each field as its owner gives it (R22, R23), with every own claim, and with the SERVING and then
the CLEARED entries of other origins, the most recently cleared first, at most three (R25). A snapshot is the staged
record's characters, and empty without a plan (R24). Entries cleared at one moment stand in table order (log 20). -/
def Obligations.RecordDecodesToItself : Prop :=
  (∀ r : Record, r.claims.length ≤ 2 → r.reports.length ≤ 3 →
    Record.decode r.encode = some r ∧ crcMatches r.encode = true ∧
    r.encode.length = 16 + r.claims.length + 2 * r.reports.length) ∧
  (∀ s : State, (s.plan = none → s.snapshotNow = []) ∧
    ∀ p, s.plan = some p → s.snapshotNow = (s.staged p).encode) ∧
  ∀ (s : State) (p : Plan),
    s.staged p =
      { station := BitVec.ofFin p.station, format := 1, fingerprint := p.fingerprint
        mode := BitVec.ofNat 3 (match s.ctrl.mode with
          | .dark | .loading => 0
          | .check => 1
          | .startFlash => 2
          | .allRed => 3
          | .running => 4
          | .panelFlash => 5
          | .faultFlash => 6)
        checkPassed := s.lamps.checkPassed
        step := match s.seq.step with
          | .isolated => 0
          | .seeking => 1
          | .inStep => 2
        clock := s.cycle.set, manual := s.manualFlag
        active := BitVec.ofFin s.cycle.active, requested := BitVec.ofFin s.cycle.requested
        current := match s.seq.st with
          | .idle => 0
          | .dwell t => BitVec.ofNat 4 (t.val + 1)
          | .change c => match c.fromStage with
            | none => 0
            | some t => BitVec.ofNat 4 (t.val + 1)
        target := match s.seq.st with
          | .idle | .dwell _ => 0
          | .change c => BitVec.ofNat 4 ((c.replacement.getD c.toStage).val + 1)
        position := BitVec.ofNat 16 s.cycle.position
        occupancy := s.latched.occupancy, faults := s.latched.faults
        claims := s.claims.own.map fun o => { serial := BitVec.ofFin o.serial, route := BitVec.ofFin o.route
                                              emergency := o.priority == .emergency }
        reports := reportList p.station s.claims.table } ∧
    ∃ cleared : List ClaimEntry,
      cleared.Perm (s.claims.table.filter fun e => !(e.origin == p.station) && e.state == .cleared) ∧
      cleared.Pairwise (fun a b => b.clearedOrder.getD 0 ≤ a.clearedOrder.getD 0) ∧
      (∀ n, (cleared.filter fun e => e.clearedOrder.getD 0 == n) =
        s.claims.table.filter fun e =>
          !(e.origin == p.station) && e.state == .cleared && e.clearedOrder.getD 0 == n) ∧
      reportList p.station s.claims.table =
        (((s.claims.table.filter fun e => !(e.origin == p.station) && e.state == .serving) ++ cleared).take 3).map
          fun e => { origin := BitVec.ofFin e.origin, serial := BitVec.ofFin e.serial
                     state := if e.state = .serving then 1 else 2 }

/-! ### Peer table -/

/-- PEER_CLASSIFICATION, PEER_LOST and PEER_ABSENT (R32 to R34), which stand inside a boundary; given alone they do
their own part of it, and no other entry and no other block changes (log 5). A boundary evaluates each entry once
against its own slot's outcome (R29): a good record is stored, admits an ABSENT or LOST entry to HEARD (R31, R34) and
classifies the third of a run, or any later one (R32, R35); a bad or silent slot returns HEARD to ABSENT, counts a
miss, and leads to LOST at ten and from there to ABSENT at fifty (R31, R33, R34); the SELF entry stands. A record's
content is in range by R27's conditions on mode, step state, stages, position, own claims and report states. -/
def Obligations.PeerEntryTransitions : Prop :=
  (∀ (s : State) (k : StationId) (chars : List Byte) (r : Record),
    (goodRecord k chars = some r →
      ((s.peers.nth k).presence = .heard ∧ 2 ≤ (s.peers.nth k).run ∨ (s.peers.nth k).presence = .present ∨
        (s.peers.nth k).presence = .foreign ∨ (s.peers.nth k).presence = .unfit) →
      exec (.peerClassification k chars) s = .next { s with peers := s.peers.put k (
        { s.peers.nth k with
          presence :=
            if r.format ≠ 1 ∨ r.fingerprint ≠ s.fingerprint then .foreign
            else if r.checkPassed = false ∨ r.inRange = false then .unfit
            else .present
          run := 3, miss := 0, record := some r, fresh := true }) }) ∧
    (((s.peers.nth k).presence = .present ∨ (s.peers.nth k).presence = .foreign ∨
        (s.peers.nth k).presence = .unfit) → (s.peers.nth k).miss = 9 →
      exec (.peerLost k) s = .next { s with peers := s.peers.put k (
        { s.peers.nth k with presence := .lost, miss := 10, fresh := false }) }) ∧
    ((s.peers.nth k).presence = .lost → (s.peers.nth k).miss = 49 →
      exec (.peerAbsent k) s = .next { s with peers := s.peers.put k (
        { s.peers.nth k with presence := .absent, run := 0, miss := 0, record := none, fresh := false }) })) ∧
  (∀ (f : Half) (e : Peer) (r : Record),
    (e.presence = .absent ∨ e.presence = .lost → e.evaluate f (.good r) =
      { e with presence := .heard, run := 1, miss := 0, record := some r, fresh := true }) ∧
    (e.presence = .heard → e.run < 2 → e.evaluate f (.good r) =
      { e with run := e.run + 1, record := some r, fresh := true }) ∧
    (e.presence = .heard ∧ 2 ≤ e.run ∨ e.presence = .present ∨ e.presence = .foreign ∨ e.presence = .unfit →
      e.evaluate f (.good r) =
        { e with
          presence :=
            if r.format ≠ 1 ∨ r.fingerprint ≠ f then .foreign
            else if r.checkPassed = false ∨ r.inRange = false then .unfit
            else .present
          run := 3, miss := 0, record := some r, fresh := true })) ∧
  (∀ (f : Half) (e : Peer) (o : Outcome), o = .bad ∨ o = .silent →
    (e.presence = .absent → e.evaluate f o = { e with fresh := false, badCount := (e.evaluate f o).badCount }) ∧
    (e.presence = .heard ∨ e.presence = .lost ∧ 49 ≤ e.miss → e.evaluate f o =
      { e with presence := .absent, run := 0, miss := 0, record := none, fresh := false
               badCount := (e.evaluate f o).badCount }) ∧
    (e.presence = .present ∨ e.presence = .foreign ∨ e.presence = .unfit →
      (e.miss < 9 → e.evaluate f o =
        { e with miss := e.miss + 1, fresh := false, badCount := (e.evaluate f o).badCount }) ∧
      (9 ≤ e.miss → e.evaluate f o =
        { e with presence := .lost, miss := e.miss + 1, fresh := false, badCount := (e.evaluate f o).badCount })) ∧
    (e.presence = .lost → e.miss < 49 → e.evaluate f o =
      { e with miss := e.miss + 1, fresh := false, badCount := (e.evaluate f o).badCount })) ∧
  (∀ (f : Half) (e : Peer) (o : Outcome), e.presence = .self ∨ o = .own → e.evaluate f o = e) ∧
  (∀ r : Record, r.inRange = true ↔
    1 ≤ r.mode.toNat ∧ r.mode.toNat ≤ 6 ∧ r.step.toNat ≤ 2 ∧ r.current.toNat ≤ 12 ∧ r.target.toNat ≤ 12 ∧
    r.position.toNat ≤ 2399 ∧ (r.clock = false → r.position = 0) ∧
    r.claims.Pairwise (fun a b => a.route ≠ b.route ∧ a.serial ≠ b.serial) ∧
    ∀ q ∈ r.reports, q.state = 1 ∨ q.state = 2) ∧
  ∀ (s : State) (k : StationId) (r : Record), s.presentRecord k = some r ↔
    (s.peers.nth k).presence = .present ∧ (s.peers.nth k).record = some r

/-- The bad-record count (R36): each BAD outcome raises the count of an entry other than SELF by one, up to 255, and
no other outcome changes it; it is 0 after start-up reset, and the peers report carries it with presence and miss count
(R38). PEER_CLASSIFICATION, PEER_LOST and PEER_ABSENT stand inside a boundary, whose BAD outcome raises the count; that
each of them given alone leaves every count as it is, is the model's choice (log 5). -/
def Obligations.BadRecordCount : Prop :=
  (∀ (f : Half) (e : Peer), e.presence ≠ .self →
    (e.evaluate f .bad).badCount = min (e.badCount + 1) 255) ∧
  (∀ (f : Half) (e : Peer), e.presence = .self → (e.evaluate f .bad).badCount = e.badCount) ∧
  (∀ (f : Half) (e : Peer) (o : Outcome), o ≠ .bad → (e.evaluate f o).badCount = e.badCount) ∧
  (∀ (s : State) (outcome : StationId → Outcome) (k : StationId),
    (s.evaluatePeers outcome).peers.nth k = (s.peers.nth k).evaluate s.fingerprint (outcome k)) ∧
  (∀ (s : State) (k : StationId) (chars : List Byte) (j : StationId),
    (∃ t, exec (.peerClassification k chars) s = .next t ∧ (t.peers.nth j).badCount = (s.peers.nth j).badCount) ∧
    (∃ t, exec (.peerLost k) s = .next t ∧ (t.peers.nth j).badCount = (s.peers.nth j).badCount) ∧
    (∃ t, exec (.peerAbsent k) s = .next t ∧ (t.peers.nth j).badCount = (s.peers.nth j).badCount)) ∧
  (∀ k, (State.reset.peers.nth k).badCount = 0) ∧
  ∀ s : State, s.peersBody = (List.finRange 16).flatMap fun k =>
    [match (s.peers.nth k).presence with
      | .absent => 0
      | .heard => 1
      | .present => 2
      | .lost => 3
      | .foreign => 4
      | .unfit => 5
      | .self => 6,
     numChar (s.peers.nth k).miss, numChar (s.peers.nth k).badCount]

/-! ### Cycle clock and patterns -/

/-- R47: the local position, and that an UNSET clock gives none. -/
def Obligations.LocalPosition : Prop :=
  (∀ (s : State) (p : Plan) (d : PatternDef), s.plan = some p → s.cycle.set = true →
    p.patternOf s.cycle.active = some d →
    s.cycle.position < p.cOf s.cycle.active → d.ofs < p.cOf s.cycle.active →
    s.localPosition = (s.cycle.position + p.cOf s.cycle.active - d.ofs) % p.cOf s.cycle.active ∧
    (s.cycle.position = d.ofs → s.localPosition = 0) ∧
    (s.cycle.position < d.ofs → s.localPosition = s.cycle.position + (p.cOf s.cycle.active - d.ofs))) ∧
  localOf 600 40 0 = 560 ∧ localOf 600 40 40 = 0 ∧ localOf 600 40 599 = 559 ∧ (∀ c, localOf c 0 0 = 0) ∧
  ∀ s : State, s.cycle.set = false →
    s.localPosition = 0 ∧ s.coordinatedOp = false ∧ ∀ t, s.eligible t = true

/-- The position part of a boundary (R43, R45, R46): advance, jump, late mark, and the UNSET wait. Under active pattern
0 the part changes nothing, a cycle mark heard or not: no jump, no late mark and no wait; there is no local position
(0 is shown, R56), no coordinated operation, no cycle point and no cycle-mark request (R44, R46, R47, R55). -/
def Obligations.PositionAtABoundary : Prop :=
  (∀ (c : Cycle) (cLen : Nat) (heard : Bool), c.active = 0 →
    c.positionStep cLen heard = c ∧ c.bigJump cLen heard = false) ∧
  (∀ (s : State) (p : Plan), s.cycle.active = 0 →
    s.localPosition = 0 ∧ s.coordinatedOp = false ∧ (∀ t, s.eligible t = true) ∧ s.cyclePoint p = none ∧
    s.requestMark p = s) ∧
  ∀ (c : Cycle) (cLen : Nat), c.active ≠ 0 → 0 < cLen → c.position < cLen →
    (c.set = true →
      (c.positionStep cLen false).position = (c.position + 1) % cLen ∧
      (cLen - 1 - c.position ≤ cLen / 2 →
        (c.positionStep cLen true).position = 0 ∧ (c.positionStep cLen true).lateMarks = c.lateMarks) ∧
      (cLen / 2 < cLen - 1 - c.position →
        (c.positionStep cLen true).position = c.position + 1 ∧
        (c.positionStep cLen true).lateMarks = c.lateMarks + 1)) ∧
    (c.set = false →
      c.positionStep cLen true = { c with set := true, position := 0, unsetWait := 0 } ∧
      (c.unsetWait + 1 < cLen → c.positionStep cLen false = { c with unsetWait := c.unsetWait + 1 }) ∧
      (cLen ≤ c.unsetWait + 1 →
        c.positionStep cLen false = { c with set := true, position := 0, unsetWait := 0 }))

/-- The start hold's end, the UNSET wait's end and the adoption of a divergence candidate (R42, R46, R54), which stand
inside a boundary; given alone they do their own part of it with its notices, and nothing else of a boundary (log 5). At
each boundary the position and the hold take their steps, a majority of the PRESENT peers for another pattern is
counted and adopted at the fourth boundary in a row (R53, R54), and otherwise the requested pattern is adopted where
every PRESENT peer requests it too, the hold is complete and the cycle is at its start or uncoordinated (R51, R52,
R55); the divergence count returns to 0 then, and that the candidate is kept is the model's choice (log 34), and so is
that the wait count is 0 once divergence adopts pattern 0 (log 47). The cycle is disturbed by a jump over more than two
positions, and by an agreement on a coordinated pattern that sets the position or changes OFS (R45, R49, R52). The
sequencer acts on the notices in the order of R105: release, force-off and step state (R88, R89, R106); a zero point in
IDLE is log 18. IN_STEP asks for every group of the main stage GREEN, in its DWELL or in a change (R106). -/
def Obligations.CycleUnitCounts : Prop :=
  (∀ s : State,
    (s.mainGreen = true ↔ ∃ m, s.mainStage = some m ∧
      ∀ g, BitSet.has (s.stageGroups m) g = true → (s.groups.nth g).state = .green) ∧
    (s.atMain = true ↔ (∃ m, s.mainStage = some m ∧ s.seq.st = .dwell m) ∨ ∃ c, s.seq.st = .change c)) ∧
  (∀ (s : State) (p : Plan), s.plan = some p →
    (s.cycle.startHold = 49 →
      exec .startHoldEnd s = .next { s with cycle := { s.cycle with startHold := 50 } }) ∧
    (s.cycle.active ≠ 0 → s.cycle.set = false → s.cycle.unsetWait + 1 = p.cOf s.cycle.active →
      ∃ u, u = { s with cycle := { s.cycle with set := true, position := 0, unsetWait := 0 } } ∧
        exec .unsetWaitEnd s = .next (State.react (u.takeNotices
          { patternChanged := none, clockUnset := false, clockSet := true, disturbed := false
            point := u.cyclePoint p })) ∧
        u.follows (State.react (u.takeNotices
          { patternChanged := none, clockUnset := false, clockSet := true, disturbed := false
            point := u.cyclePoint p }))) ∧
    (∀ q, s.majority = some q → s.cycle.divCandidate = some q → s.cycle.divCount = 3 →
      ∃ u n, u = { s with cycle := { s.cycle with
          active := q, set := false, position := 0, unsetWait := 0, divCandidate := none, divCount := 0 } } ∧
        n = { patternChanged := some s.cycle.active, clockUnset := s.cycle.set, clockSet := false
              disturbed := false, point := none } ∧
        exec .divergenceAdoption s = .next (State.react (u.takeNotices n)) ∧
        u.follows (State.react (u.takeNotices n)))) ∧
  (∀ (s : State) (p : Plan) (heard : Bool), s.cycleBoundary p heard =
    State.react (State.takeNotices
      (State.requestMark { s with cycle := (s.cycleSteps p heard).1 } p)
      (State.noticesOf (State.requestMark { s with cycle := (s.cycleSteps p heard).1 } p) p s.cycle
        (s.cycleSteps p heard).2))) ∧
  (∀ (s : State) (p : Plan) (before : Cycle) (disturbed : Bool),
    s.noticesOf p before disturbed =
      { patternChanged := if s.cycle.active = before.active then none else some before.active
        clockUnset := before.set && !s.cycle.set, clockSet := !before.set && s.cycle.set
        disturbed := disturbed && s.cycle.set, point := s.cyclePoint p } ∧
    s.requestMark p = (if s.cycle.set = true ∧ s.cycle.position + 1 = p.cOf s.cycle.active
      then { s with line := { s.line with cycleMarkReq := true } } else s)) ∧
  (∀ (s : State) (p : Plan) (heard : Bool) (c : Cycle),
    c = { s.cycle.positionStep (p.cOf s.cycle.active) heard with startHold := min (s.cycle.startHold + 1) 50 } →
    (s.cycle.bigJump (p.cOf s.cycle.active) heard = true ↔
      heard = true ∧ s.cycle.set = true ∧ s.cycle.active ≠ 0 ∧
        2 < p.cOf s.cycle.active - 1 - s.cycle.position ∧
        p.cOf s.cycle.active - 1 - s.cycle.position ≤ p.cOf s.cycle.active / 2) ∧
    (∀ q, s.majority = some q → s.cycle.divCandidate = some q → 3 ≤ s.cycle.divCount →
      s.cycleSteps p heard = ({ c with
        active := q, set := false, position := 0, unsetWait := 0, divCandidate := none, divCount := 0 },
        s.cycle.bigJump (p.cOf s.cycle.active) heard)) ∧
    (∀ d, ((s.majority = none ∧ d = { c with divCandidate := none, divCount := 0 }) ∨
        (∃ q, s.majority = some q ∧ s.cycle.divCandidate = some q ∧ s.cycle.divCount < 3 ∧
          d = { c with divCount := s.cycle.divCount + 1 }) ∨
        (∃ q, s.majority = some q ∧ s.cycle.divCandidate ≠ some q ∧
          d = { c with divCandidate := some q, divCount := 1 })) →
      ((s.cycleSteps p heard).2 = true ↔ s.cycle.bigJump (p.cOf s.cycle.active) heard = true ∨
        d.startHold = 50 ∧ (d.active = 0 ∨ d.set = true ∧ d.position = 0) ∧ d.requested ≠ d.active ∧
          s.allRequest d.requested = true ∧ d.requested ≠ 0 ∧
          (d.active = 0 ∨ p.cOf d.active ≠ p.cOf d.requested ∨
            (p.patternOf d.active).map (·.ofs) ≠ (p.patternOf d.requested).map (·.ofs))) ∧
      (s.cycleSteps p heard).1 =
        if d.startHold = 50 ∧ (d.active = 0 ∨ d.set = true ∧ d.position = 0) ∧ d.requested ≠ d.active ∧
            s.allRequest d.requested = true then
          if d.requested = 0 then { d with active := 0, divCount := 0, set := false, position := 0, unsetWait := 0 }
          else if d.active ≠ 0 ∧ p.cOf d.active = p.cOf d.requested then
            { d with active := d.requested, divCount := 0 }
          else { d with active := d.requested, divCount := 0, set := true, position := 0, unsetWait := 0 }
        else d)) ∧
  (∀ (s : State) (q : PatternId),
    (s.allRequest q = true ↔ ∀ k r, s.presentRecord k = some r → r.requested.toFin = q) ∧
    (s.majority = some q ↔ q ≠ s.cycle.active ∧ s.presentCount < 2 * s.showing q) ∧
    s.presentCount = ((List.finRange 16).filter fun k => (s.presentRecord k).isSome).length ∧
    s.showing q = ((List.finRange 16).filter fun k =>
      (s.presentRecord k).any fun r => r.active.toFin == q).length) ∧
  (∀ (s : State) (p : Plan) (d : PatternDef), p.patternOf s.cycle.active = some d → s.plan = some p →
    (s.cycle.set = false → s.cyclePoint p = none) ∧
    (s.cycle.set = true → s.localPosition = 0 → s.cyclePoint p = some .zero) ∧
    (s.cycle.set = true → s.localPosition ≠ 0 → s.localPosition = d.pREL → s.cyclePoint p = some .release) ∧
    (s.cycle.set = true → s.localPosition ≠ 0 → s.localPosition ≠ d.pREL →
      (∀ t, s.cyclePoint p = some (.forceOff t) → t ∈ p.sequence.drop 1 ∧ d.pFO.nth t = s.localPosition) ∧
      (s.cyclePoint p = none → ∀ t ∈ p.sequence.drop 1, d.pFO.nth t ≠ s.localPosition))) ∧
  ∀ (s : State) (n : Notices), s.takeNotices n = { s with seq := { s.seq with
    release :=
      if s.seq.st ≠ .idle ∧ n.point = some .release then true
      else if n.patternChanged.isSome = true ∨ n.clockSet = true then false
      else s.seq.release
    forceOff :=
      (match n.point, s.seq.st with
        | some (.forceOff x), .dwell t => t == x
        | some (.forceOff x), .change c => c.toStage == x
        | _, _ => false) ||
      (s.seq.forceOff && !n.patternChanged.isSome && !n.clockSet)
    step :=
      if n.point = some .zero ∧ s.cycle.active ≠ 0 then
        if s.mainGreen = true ∧ s.atMain = true ∧ n.disturbed = false ∧ n.clockSet = false
        then .inStep else .seeking
      else if (n.clockUnset = true ∨ n.disturbed = true) ∧ s.cycle.active ≠ 0 then .seeking
      else match n.patternChanged with
        | none => s.seq.step
        | some old => if s.cycle.active = 0 then .isolated else if old = 0 then .seeking else s.seq.step } }

/-- A pattern line's filtered level changes the pair, which starts its timing; a pair held for tPS becomes the
requested pattern (R50, R193). A line that has not held for tPF, and any level in DARK, changes its filter alone, and a
filter without its supply follows its pin alone (R171, R193; log 24). A line is asserted while its pin is low (R198). -/
def Obligations.PatternLinesGiveTheRequest : Prop :=
  (∀ (s : State) (pin : Bool) (held : Nat),
    (s.supplyOk = false → s.panel.pairValue = s.cycle.pair ∨ s.ctrl.mode = .dark →
      exec (.patternLineChange .a pin held) s = .next { s with panel := { s.panel with
        patternA := { s.panel.patternA with raw := !pin } } } ∧
      exec (.patternLineChange .b pin held) s = .next { s with panel := { s.panel with
        patternB := { s.panel.patternB with raw := !pin } } }) ∧
    (s.supplyOk = true → s.ctrl.mode = .dark → 3125 ≤ held →
      exec (.patternLineChange .a pin held) s = .next { s with panel := { s.panel with
        patternA := { raw := !pin, time := 3125, level := some !pin } } } ∧
      exec (.patternLineChange .b pin held) s = .next { s with panel := { s.panel with
        patternB := { raw := !pin, time := 3125, level := some !pin } } })) ∧
  ∀ (s : State) (pin : Bool) (held : Nat), s.supplyOk = true →
    (s.ctrl.mode ≠ .dark → 3125 ≤ held → ∃ t, exec (.patternLineChange .a pin held) s = .next t ∧
      t.panel = { s.panel with patternA := { raw := !pin, time := 3125, level := some !pin } } ∧
      t.cycle = (if t.panel.pairValue = s.cycle.pair then s.cycle
        else { s.cycle with pair := t.panel.pairValue, pairTime := 0 }) ∧
      t = { s with panel := t.panel, cycle := t.cycle }) ∧
    (s.ctrl.mode ≠ .dark → 3125 ≤ held → ∃ t, exec (.patternLineChange .b pin held) s = .next t ∧
      t.panel = { s.panel with patternB := { raw := !pin, time := 3125, level := some !pin } } ∧
      t.cycle = (if t.panel.pairValue = s.cycle.pair then s.cycle
        else { s.cycle with pair := t.panel.pairValue, pairTime := 0 }) ∧
      t = { s with panel := t.panel, cycle := t.cycle }) ∧
    (held < 3125 → s.panel.pairValue = s.cycle.pair ∨ s.ctrl.mode = .dark →
      exec (.patternLineChange .a pin held) s = .next { s with panel := { s.panel with
        patternA := { raw := !pin, time := held, level := s.panel.patternA.level } } } ∧
      exec (.patternLineChange .b pin held) s = .next { s with panel := { s.panel with
        patternB := { raw := !pin, time := held, level := s.panel.patternB.level } } }) ∧
    (∀ p : Panel, p.pairValue.val =
      (if p.patternA.level = some true then 1 else 0) + (if p.patternB.level = some true then 2 else 0)) ∧
    (s.ctrl.mode ≠ .dark → 125000 ≤ s.cycle.pairTime → s.cycle.pair ≠ s.cycle.requested →
      exec .requestedPatternChange s =
        .next { s with cycle := { s.cycle with requested := s.cycle.pair } })

/-- R41 for every step: a SET clock's position lies below C of its coordinated pattern, an UNSET one reads 0. -/
def Obligations.CyclePositionStaysInRange : Prop :=
  ∀ s t : State, s.loadSafe → s.cycleSafe → step s = .next t → t.cycleSafe

/-! ### Signal groups -/

/-- An open is granted (R66): the group leaves RED, for PREPARE with a tPRE above 0.0 and for GREEN otherwise,
its held request NONE; no other group changes before what follows. In GREEN its green period starts afresh, every flag
clear, its gap timer at tGAP where it keeps one, and its locking calls are cleared (R68, R115). A group is clear to open while it stands in RED
with OPEN held and every group in conflict with it has been in RED for at least its clearance; where a lower-numbered
conflicting group is clear to open too, this group stays in RED for what follows. -/
def Obligations.OpenGrantLeavesRed : Prop :=
  (∀ (s : State) (g : GroupId),
    (s.clearToOpen g = true ↔ (s.groupPlan g).kind ≠ .unused ∧ (s.groups.nth g).state = .red ∧
      (s.groups.nth g).held = .open ∧ ∀ h, s.conflicts h g = true →
        (s.groups.nth h).state = .red ∧ 6250 * s.clearance h g ≤ (s.groups.nth h).time) ∧
    (s.grantable g = true ↔ s.clearToOpen g = true ∧
      ∀ h, h < g → s.conflicts h g = true → s.clearToOpen h = false)) ∧
  ∀ (s : State) (g : GroupId), s.clearToOpen g = true →
    (s.grantable g = true → 0 < (s.groupPlan g).tPRE →
      ∃ u : State, exec (.openGrant g) s = .next u.react ∧ s.follows u ∧
        u.groups = s.groups.put g { s.groups.nth g with state := .prepare, held := .none, time := 0 } ∧
        u.callers = s.callers ∧ u = State.lampSync { s with groups := u.groups }) ∧
    (s.grantable g = true → (s.groupPlan g).tPRE = 0 →
      ∃ u : State, exec (.openGrant g) s = .next u.react ∧ s.follows u ∧
        u.groups = s.groups.put g
          { state := .green, held := .none, time := 0, minDone := false, gapped := false
            gap := if s.gapTimed g then 6250 * (s.groupPlan g).tGAP else 0
            maxRunning := false, maxLeft := 0, maxDone := false } ∧
        u.callers = s.callers.put g 0 ∧ u = State.lampSync { s with groups := u.groups, callers := u.callers }) ∧
    (s.grantable g = false → exec (.openGrant g) s = .next s.react)

/-- tPRE runs out: the group enters GREEN with its green period started afresh, a close held from PREPARE kept,
its gap timer loaded, and its locking call cleared (R67, R68, R115). -/
def Obligations.PrepareEndEntersGreen : Prop :=
  ∀ (s : State) (g : GroupId), (s.groups.nth g).state = .prepare →
    6250 * (s.groupPlan g).tPRE ≤ (s.groups.nth g).time →
    ∃ u : State, exec (.prepareEnd g) s = .next u.react ∧ s.follows u ∧
      u.groups = s.groups.put g
        { state := .green, held := if (s.groups.nth g).held = .close then .close else .none, time := 0
          minDone := false, gapped := false
          gap := if s.gapTimed g then 6250 * (s.groupPlan g).tGAP else 0
          maxRunning := false, maxLeft := 0, maxDone := false } ∧
      u.callers = s.callers.put g 0 ∧ u.seq = s.seq ∧ u.claims = s.claims ∧ u.ctrl = s.ctrl ∧
      u = State.lampSync { s with groups := u.groups, callers := u.callers }

/-- tMIN runs out: min-done is set, a group with no means of extending is gapped-out, and a held close takes the
group to CLEARING (R69, R70, R72, R74). -/
def Obligations.MinGreenEndSetsMinDone : Prop :=
  ∀ (s : State) (g : GroupId), (s.groups.nth g).state = .green → (s.groups.nth g).minDone = false →
    6250 * (s.groupPlan g).tMIN ≤ (s.groups.nth g).time →
    ∃ u : State, exec (.minGreenEnd g) s = .next u.react ∧ s.follows u ∧
      (∀ h, h ≠ g → u.groups.nth h = s.groups.nth h) ∧
      ((s.groups.nth g).held ≠ .close → u.groups.nth g =
        { s.groups.nth g with minDone := true, gapped := (s.groups.nth g).gapped || !(s.gapTimed g) }) ∧
      ((s.groups.nth g).held = .close → u.groups.nth g =
        { state := .clearing, held := .none, time := 0, minDone := false, gapped := false, gap := 0
          maxRunning := false, maxLeft := 0, maxDone := false }) ∧
      u.callers = s.callers ∧ u.seq = s.seq ∧ u.claims = s.claims ∧ u.ctrl = s.ctrl ∧
      u = State.lampSync { s with groups := u.groups }

/-- The gap timer at 0.0 with the input unoccupied latches gapped-out (R71); the max timer at 0.0 latches
max-done, never before min-done (R73); the end of tCLR brings RED with a RED time of 0.0 and a held OPEN kept (R74). -/
def Obligations.GapMaxAndClearingEnd : Prop :=
  ∀ (s : State) (g : GroupId),
    ((s.groups.nth g).state = .green → s.gapTimed g = true → (s.groups.nth g).gapped = false →
      (s.groups.nth g).gap = 0 → s.extended g = false →
      ∃ u : State, exec (.gapOut g) s = .next u.react ∧ s.follows u ∧
        u.groups = s.groups.put g { s.groups.nth g with gapped := true } ∧
        u.callers = s.callers ∧ u.seq = s.seq ∧ u.claims = s.claims ∧ u.ctrl = s.ctrl ∧
        u = State.lampSync { s with groups := u.groups }) ∧
    ((s.groups.nth g).state = .green → (s.groups.nth g).maxRunning = true →
      (s.groups.nth g).maxDone = false → (s.groups.nth g).maxLeft = 0 → (s.groups.nth g).minDone = true →
      ∃ u : State, exec (.maxDone g) s = .next u.react ∧ s.follows u ∧
        u.groups = s.groups.put g { s.groups.nth g with maxDone := true } ∧
        u.callers = s.callers ∧ u.seq = s.seq ∧ u.claims = s.claims ∧ u.ctrl = s.ctrl ∧
        u = State.lampSync { s with groups := u.groups }) ∧
    ((s.groups.nth g).state = .clearing → 6250 * (s.groupPlan g).tCLR ≤ (s.groups.nth g).time →
      ∃ u : State, exec (.clearingEnd g) s = .next u.react ∧ s.follows u ∧
        u.groups = s.groups.put g { s.groups.nth g with state := .red, time := 0 } ∧
        u.callers = s.callers ∧ u.seq = s.seq ∧ u.claims = s.claims ∧ u.ctrl = s.ctrl ∧
        u = State.lampSync { s with groups := u.groups })

/-- R60 and R73 for every step: held requests and the items of a green period stand only where the rule has them, and
max-done is never set before min-done. -/
def Obligations.GroupRecordsStayRegular : Prop :=
  ∀ s t : State, s.groupsRegular → step s = .next t → t.groupsRegular

/-- R66 for every step: no two groups marked conflicting are both in states other than RED, FLASHING and DARK. -/
def Obligations.ConflictingGroupsStayApart : Prop :=
  ∀ s t : State, s.loadSafe → s.conflictSafe → step s = .next t → t.conflictSafe

/-! ### Detectors -/

/-- A raw input's move starts the filter's timing from 0; nothing else changes (R110); the input is active while its
pin is low (R198). The initial level is
taken once the raw input has held for tDF: no edge, so no count and no claim; an active level starts presence
timing and an active period, and silence timing starts where tMSL is not 0 (R111, R119, R120, R126); the detector
alone changes, and then what follows. Times are in ticks of 16 µs (log 6). -/
def Obligations.DetectorFilterAndInitialLevel : Prop :=
  (∀ (s : State) (d : LocalId) (pin : Bool), (!pin) ≠ (s.dets.nth d).raw →
    exec (.detectorInputChange d pin) s =
      .next { s with dets := s.dets.put d { s.dets.nth d with raw := !pin, filt := 0 } }) ∧
  (∀ (s : State) (d : LocalId) (f : LocalDef), s.localDef d = some f → (s.dets.nth d).initial = false →
    625 * f.tDF ≤ (s.dets.nth d).filt →
    ∃ t, exec (.initialLevel d) s = .next t ∧
      t = State.react { s with dets := s.dets.put d { s.dets.nth d with
        initial := true, level := (s.dets.nth d).raw
        presence := if (s.dets.nth d).raw then some 0 else none
        silence := if f.tMSL = 0 then none else some 0
        active := if (s.dets.nth d).raw then some 0 else none } } ∧
      t.dets = s.dets.put d { s.dets.nth d with
        initial := true, level := (s.dets.nth d).raw
        presence := if (s.dets.nth d).raw then some 0 else none
        silence := if f.tMSL = 0 then none else some 0
        active := if (s.dets.nth d).raw then some 0 else none } ∧
      t.claims.own = s.claims.own ∧ t.claims.refused = s.claims.refused ∧
      t.line = s.line ∧ t.cycle = s.cycle ∧ t.peers = s.peers ∧ t.plan = s.plan ∧ t.panel = s.panel)

/-- A rising edge of a PRESENCE, PULSE or BUTTON detector (R112, R113, R115, R120, R126): the count rises by one, the
filter, presence and silence timings and the active period start, FAULT_SILENT clears, a PULSE detector starts its
0.5 s, and a BUTTON calls each group of its list that is not GREEN; then what follows. In FAULT_STUCK no silence timing
is kept (R120). -/
def Obligations.RisingEdgeActsByMode : Prop :=
  ∀ (s : State) (d : LocalId) (f : LocalDef), s.localDef d = some f → (s.dets.nth d).initial = true →
    (s.dets.nth d).level = false → (s.dets.nth d).raw = true → 625 * f.tDF ≤ (s.dets.nth d).filt →
    f.mode = .presence ∨ f.mode = .pulse ∨ f.mode = .button →
    ∃ u : State, exec (.detectorRisingEdge d) s = .next u.react ∧
      u.dets = s.dets.put d { s.dets.nth d with
        level := true, filt := 0
        pulse := if f.mode = .pulse then some 0 else (s.dets.nth d).pulse
        fault := if (s.dets.nth d).fault = .silent then .normal else (s.dets.nth d).fault
        presence := some 0
        silence := if (s.dets.nth d).fault = .stuck ∨ f.tMSL = 0 then none else some 0
        active := some 0
        count := (s.dets.nth d).count + 1 } ∧
      (∀ g e, BitSet.has (u.callers.nth g) e = (BitSet.has (s.callers.nth g) e ||
        (f.mode == .button && e == d && BitSet.has f.calls g && !((s.groups.nth g).state == .green)))) ∧
      u = { s with dets := u.dets, callers := u.callers }

/-- A rising edge of a CLAIM detector (R130): with fewer than two own claims and none for the route an own claim
joins the list with the next serial and its lifetime, the next serial passes over those that listed own claims hold,
and the claim is offered to the table, with arbitration (R134); otherwise the edge is refused and counted. The edge of
a CLAIM detector makes no locking call, and the detector itself takes it as any other (R113, R120, R126). An own claim
that the local route leads to a stage, and that the table does not hold, enters it READY and arrived (R134); a full
table loses its newest TRANSIT entry that is not SERVING to an EMERGENCY claim, and else the claim is not entered and
the overflow is counted (R135). The miss count 0 of an own claim's entry is the model's (log 41). -/
def Obligations.ClaimEdgeRaisesOrIsRefused : Prop :=
  (∀ (s : State) (d : LocalId) (f : LocalDef) (p : Plan) (n : RouteId) (q : Priority) (dets : Table Det 24),
    s.plan = some p → s.localDef d = some f →
    (s.dets.nth d).initial = true → (s.dets.nth d).level = false → (s.dets.nth d).raw = true →
    625 * f.tDF ≤ (s.dets.nth d).filt → f.mode = .claim n q →
    dets = s.dets.put d { s.dets.nth d with
      level := true, filt := 0
      fault := if (s.dets.nth d).fault = .silent then .normal else (s.dets.nth d).fault
      presence := some 0
      silence := if (s.dets.nth d).fault = .stuck ∨ f.tMSL = 0 then none else some 0
      active := some 0
      count := (s.dets.nth d).count + 1 } →
    (∀ g, s.callsLocking d g = false) ∧
    (s.claims.own.length < 2 → (∀ o ∈ s.claims.own, o.route ≠ n) →
      ∃ o next, o = { serial := s.claims.nextSerial, route := n, priority := q, life := 62500 * p.lifeOf q
                      clearedBy := 0 } ∧
        (∃ j : Fin 16, next = s.claims.nextSerial + 1 + j ∧ (∀ x ∈ s.claims.own ++ [o], x.serial ≠ next) ∧
          ∀ i, i < j → ∃ x ∈ s.claims.own ++ [o], x.serial = s.claims.nextSerial + 1 + i) ∧
        exec (.detectorRisingEdge d) s = .next (State.react (State.arbitrate (State.offerOwn
          { s with dets := dets, claims := { s.claims with own := s.claims.own ++ [o], nextSerial := next } } p o)))) ∧
    (2 ≤ s.claims.own.length ∨ (∃ o ∈ s.claims.own, o.route = n) →
      exec (.detectorRisingEdge d) s = .next (State.react
        { s with dets := dets, claims := { s.claims with refused := s.claims.refused + 1 } }))) ∧
  (∀ (s : State) (p : Plan) (o : OwnClaim),
    ((p.routes.nth o.route).stage = none ∨ (∃ e ∈ s.claims.table, e.origin = p.station ∧ e.serial = o.serial) →
      s.offerOwn p o = s) ∧
    (∀ c, (p.routes.nth o.route).stage = some c →
      (∀ e ∈ s.claims.table, ¬ (e.origin = p.station ∧ e.serial = o.serial)) →
      s.offerOwn p o = s.offer
        { origin := p.station, serial := o.serial, route := o.route, priority := o.priority, stage := c
          remaining := 0, arrived := true, life := o.life, hold := none, state := .ready
          clearedOrder := none, miss := 0 })) ∧
  ∀ (s : State) (e : ClaimEntry),
    (s.claims.table.length < 8 → s.offer e = s.withClaimTable (s.claims.table ++ [e])) ∧
    (8 ≤ s.claims.table.length → e.priority = .emergency → ∀ l x r, s.claims.table = l ++ x :: r →
      x.priority = .transit → x.state ≠ .serving → (∀ y ∈ r, ¬ (y.priority = .transit ∧ y.state ≠ .serving)) →
      s.offer e = s.withClaimTable (l ++ r ++ [e])) ∧
    (8 ≤ s.claims.table.length →
      e.priority = .transit ∨ (∀ y ∈ s.claims.table, ¬ (y.priority = .transit ∧ y.state ≠ .serving)) →
      s.offer e = { s with claims := { s.claims with overflow := s.claims.overflow + 1 } })

/-- A rising edge of a CHECKOUT detector whose route has a SERVING entry clears the oldest such entry, and
arbitration is run (R142); without one the oldest entry of its route that is not EXPIRED is cleared, unless it is
CLEARED already or there is none. The detector itself takes the edge as any other (R113, R120, R126). The order places
are the model's form of the order in which entries were cleared (log 20). -/
def Obligations.CheckOutEdgeClearsAnEntry : Prop :=
  (∀ (s : State) (d : LocalId) (f : LocalDef) (n : RouteId) (u : State), s.localDef d = some f →
    f.mode = .checkout n →
    (s.dets.nth d).initial = true → (s.dets.nth d).level = false → (s.dets.nth d).raw = true →
    625 * f.tDF ≤ (s.dets.nth d).filt →
    u = { s with dets := s.dets.put d { s.dets.nth d with
      level := true, filt := 0
      fault := if (s.dets.nth d).fault = .silent then .normal else (s.dets.nth d).fault
      presence := some 0
      silence := if (s.dets.nth d).fault = .stuck ∨ f.tMSL = 0 then none else some 0
      active := some 0
      count := (s.dets.nth d).count + 1 } } →
    (∀ g, s.callsLocking d g = false) ∧
    (∀ l r e, s.claims.table = l ++ e :: r → e.route = n → e.state = .serving →
      (∀ x ∈ l, ¬ (x.route = n ∧ x.state = .serving)) →
      exec (.detectorRisingEdge d) s = .next (State.react (State.arbitrate
        { u with claims := { s.claims with
          table := l ++ { e with state := .cleared, hold := none, clearedOrder := some s.claims.place } :: r
          clearPlace := some s.claims.place } }))) ∧
    (∀ l r e, (∀ x ∈ s.claims.table, ¬ (x.route = n ∧ x.state = .serving)) →
      s.claims.table = l ++ e :: r → e.route = n → (∀ x ∈ l, x.route = n → x.state = .expired) →
      (e.state = .waiting ∨ e.state = .ready → exec (.detectorRisingEdge d) s = .next (State.react
        { u with claims := { s.claims with
          table := l ++ { e with state := .cleared, hold := none, clearedOrder := some s.claims.place } :: r
          clearPlace := some s.claims.place } })) ∧
      (e.state = .cleared → exec (.detectorRisingEdge d) s = .next u.react)) ∧
    ((∀ x ∈ s.claims.table, x.route = n → x.state = .expired) →
      exec (.detectorRisingEdge d) s = .next u.react)) ∧
  ∀ c : Claims, (∀ place, c.clearPlace = some place → c.place = place) ∧
    (c.clearPlace = none → ∀ e ∈ c.table, ∀ m, e.clearedOrder = some m → m < c.place)

/-- A falling edge writes the capture value from the active period, ends the presence timing and clears
FAULT_STUCK, from which the silence timing restarts (R119, R120, R126); the detector alone changes, and then what
follows. Times are in ticks of 16 µs, and a capture value is rounded
down (log 6, 21). -/
def Obligations.FallingEdgeWritesTheCapture : Prop :=
  ∀ (s : State) (d : LocalId) (f : LocalDef), s.localDef d = some f → (s.dets.nth d).initial = true →
    (s.dets.nth d).level = true → (s.dets.nth d).raw = false → 625 * f.tDF ≤ (s.dets.nth d).filt →
    ∃ dets t, dets = s.dets.put d { s.dets.nth d with
        level := false, filt := 0
        fault := if (s.dets.nth d).fault = .stuck then .normal else (s.dets.nth d).fault
        presence := none
        silence := if (s.dets.nth d).fault = .stuck then (if f.tMSL = 0 then none else some 0)
          else (s.dets.nth d).silence
        active := none
        capture := BitVec.ofNat 16 (min (((s.dets.nth d).active.getD 0) / 6250) 65535) } ∧
      exec (.detectorFallingEdge d) s = .next t ∧ t = State.react { s with dets := dets } ∧ t.dets = dets ∧
      t.claims.own = s.claims.own ∧ t.line = s.line ∧ t.cycle = s.cycle ∧ t.peers = s.peers ∧ t.plan = s.plan

/-- The end of a pulse occupancy (R112), FAULT_STUCK after tMP of an active level (R119) and FAULT_SILENT after
tMSL without a rising edge of an inactive one (R120): the detector alone changes, and then what follows. Times are in ticks of 16 µs (log 6). -/
def Obligations.DetectorTimesEnd : Prop :=
  ∀ (s : State) (d : LocalId) (f : LocalDef) (n : Nat), s.localDef d = some f →
    ((s.dets.nth d).pulse = some n → 31250 ≤ n →
      exec (.pulseOccupancyEnd d) s =
        .next (State.react { s with dets := s.dets.put d { s.dets.nth d with pulse := none } })) ∧
    ((s.dets.nth d).fault = .normal → (s.dets.nth d).presence = some n → 3750000 * f.tMP ≤ n →
      exec (.faultStuck d) s = .next (State.react
        { s with dets := s.dets.put d { s.dets.nth d with fault := .stuck, silence := none } })) ∧
    ((s.dets.nth d).fault = .normal → (s.dets.nth d).level = false → (s.dets.nth d).silence = some n →
      225000000 * f.tMSL ≤ n →
      exec (.faultSilent d) s = .next (State.react
        { s with dets := s.dets.put d { s.dets.nth d with fault := .silent } })) ∧
    ((s.dets.nth d).level = true → exec (.faultSilent d) s = .next s)

/-! ### Claims -/

/-- A claim's remaining time reaches LEAD, or 0.0 (R136, R140): a WAITING entry becomes READY and arbitration is
run; an entry arrives, and a SERVING one starts its hold. The other entries keep their places and values up to
the arbitration. Arbitration (R137 to R139): an entry whose priority the mode and MANUAL do not serve goes back to
READY; with none SERVING the first READY EMERGENCY entry, or else the first READY one, becomes SERVING with every
other of its stage and priority; with one SERVING the READY entries of its stage join it, and an EMERGENCY entry of
another stage displaces a TRANSIT service. Its outcome is one sweep in table order (log 19). A change of the service
stage goes to the sequencer (R141): an asserted stage is the target of a change that begins from another DWELL, replaces
an uncommitted change or is held by a committed one (R99); when the service ends a held target is dropped, and under a
coordinated pattern the step state is SEEKING (R101). LEAD and HOLD are the plan's whole seconds (R129). -/
def Obligations.ClaimReadinessAndArrival : Prop :=
  (∀ (s : State) (l r : List ClaimEntry) (e : ClaimEntry),
    s.claims.table = l ++ e :: r → (∀ x ∈ l, ¬ (x.origin = e.origin ∧ x.serial = e.serial)) →
    (e.state = .waiting → e.remaining ≤ s.leadTicks e.route →
      exec (.claimReady e.origin e.serial) s = .next (State.react (State.arbitrate
        (s.withClaimTable (l ++ { e with state := .ready, arrived := e.arrived || e.remaining == 0 } :: r))))) ∧
    (e.remaining = 0 → e.arrived = false → e.state = .waiting →
      exec (.claimArrived e.origin e.serial) s = .next (State.react (State.arbitrate
        (s.withClaimTable (l ++ { e with state := .ready, arrived := true } :: r))))) ∧
    (e.remaining = 0 → e.arrived = false → e.state ≠ .waiting → e.state ≠ .serving →
      exec (.claimArrived e.origin e.serial) s =
        .next (s.withClaimTable (l ++ { e with arrived := true } :: r))) ∧
    (e.remaining = 0 → e.arrived = false → e.state = .serving →
      exec (.claimArrived e.origin e.serial) s =
        .next (s.withClaimTable
          (l ++ { e with arrived := true, hold := some (s.holdTicks e.priority) } :: r)))) ∧
  (∀ s : State, s.arbitrate = State.setService
      (s.withClaimTable (arbitrateTable s.holdTicks (served s.ctrl.mode s.manualFlag) s.claims.table))
      (servingStage (arbitrateTable s.holdTicks (served s.ctrl.mode s.manualFlag) s.claims.table))) ∧
  (∀ (s : State) (new : Option StageId),
    (new = s.seq.service → s.setService new = s) ∧
    (∀ c, new = some c → new ≠ s.seq.service →
      s.setService new = State.assertService { s with seq := { s.seq with service := new } } c) ∧
    (new = none → s.seq.service ≠ none → s.setService new = { s with seq := { s.seq with
      service := none
      st := (match s.seq.st with
        | .idle => .idle
        | .dwell t => .dwell t
        | .change r => .change { r with replacement := none })
      step := if s.cycle.active = 0 then s.seq.step else .seeking } })) ∧
  (∀ (s : State) (c : StageId),
    (s.seq.st = .idle → s.assertService c = s) ∧
    (∀ t, s.seq.st = .dwell t → s.assertService c = if t = c then s else s.beginChange t c) ∧
    (∀ r, s.seq.st = .change r →
      (r.committed = false → s.assertService c = if r.toStage = c then s else s.replaceChange r c) ∧
      (r.committed = true → s.assertService c = { s with seq := { s.seq with
        st := .change { r with replacement := if r.toStage = c then none else some c } } }))) ∧
  (∀ (s : State) (n : RouteId),
    (s.plan = none → s.leadTicks n = 0 ∧ s.holdTicks .emergency = 0 ∧ s.holdTicks .transit = 0) ∧
    ∀ p, s.plan = some p → s.leadTicks n = 62500 * p.lead.nth n ∧
      s.holdTicks .emergency = 62500 * p.holdEmergency ∧ s.holdTicks .transit = 62500 * p.holdTransit) ∧
  (∀ (m : Mode) (manual : Bool), served m manual .emergency = (m == .running) ∧
    served m manual .transit = (m == .running && !manual)) ∧
  (∀ (hold : Priority → Nat) (sv : Priority → Bool) (t : List ClaimEntry) (e : ClaimEntry),
    e.toReady = (if e.state = .serving then { e with state := .ready, hold := none } else e) ∧
    e.toServing hold = { e with state := .serving, hold := if e.arrived then some (hold e.priority) else none } ∧
    arbitrateTable hold sv t =
      (let back := t.map fun x => if x.state = .serving ∧ sv x.priority = false then x.toReady else x
       match servingStage back with
       | none => chooseService hold sv back
       | some c =>
         let joined := joinService hold sv c (emergencyService back) back
         if emergencyService joined = false ∧
             joined.any (fun x => x.state == .ready && sv x.priority && x.priority == .emergency) = true
         then chooseService hold sv (joined.map ClaimEntry.toReady) else joined)) ∧
  (∀ (hold : Priority → Nat) (sv : Priority → Bool) (t : List ClaimEntry),
    ((∀ e ∈ t, ¬ (e.state = .ready ∧ sv e.priority = true)) → chooseService hold sv t = t) ∧
    ∀ l f r, t = l ++ f :: r → f.state = .ready → sv f.priority = true →
      (f.priority = .emergency ∧ (∀ x ∈ l, ¬ (x.state = .ready ∧ sv x.priority = true ∧ x.priority = .emergency)) ∨
        (∀ x ∈ t, ¬ (x.state = .ready ∧ sv x.priority = true ∧ x.priority = .emergency)) ∧
          (∀ x ∈ l, ¬ (x.state = .ready ∧ sv x.priority = true))) →
      chooseService hold sv t = t.map fun x =>
        if x.state = .ready ∧ sv x.priority = true ∧ x.priority = f.priority ∧ x.stage = f.stage
        then x.toServing hold else x) ∧
  ∀ (hold : Priority → Nat) (sv : Priority → Bool) (c : StageId) (em : Bool) (e : ClaimEntry) (t : List ClaimEntry),
    joinService hold sv c em [] = [] ∧
    (e.state = .ready → sv e.priority = true → e.stage = c → e.priority = .emergency ∨ em = false →
      joinService hold sv c em (e :: t) =
        e.toServing hold :: joinService hold sv c (em || e.priority == .emergency) t) ∧
    (e.state ≠ .ready ∨ sv e.priority = false ∨ e.stage ≠ c ∨ e.priority = .transit ∧ em = true →
      joinService hold sv c em (e :: t) = e :: joinService hold sv c em t)

/-- A hold runs out: the entry is CLEARED (R140). A lifetime runs out: the entry is EXPIRED (R143). Three good
records without the claim remove the entry (R144); WITHDRAWAL_DETECTED given alone does that part of a boundary and
nothing else (log 5). Where a SERVING entry is concerned, arbitration is run. The order places of CLEARED entries are
the model's form of their order (log 20). At a boundary the claim unit takes its steps in the order of R147: entries of
origins not PRESENT leave (R144), withdrawals are counted, CLEARED reports join the cleared-by sets (R146), own claims
that have ended are withdrawn (R145), published claims are offered, peers first and own claims last (R133, R134; log
40), and arbitration is run where a SERVING entry has gone or an offer has entered a READY one, also one whose identity
stood READY before and was displaced at this boundary. -/
def Obligations.ClaimsEnd : Prop :=
  (∀ (s : State) (l r : List ClaimEntry) (e : ClaimEntry),
    s.claims.table = l ++ e :: r → (∀ x ∈ l, ¬ (x.origin = e.origin ∧ x.serial = e.serial)) →
    (e.state = .serving → e.hold = some 0 →
      exec (.holdEnd e.origin e.serial) s = .next (State.react (State.arbitrate
        { s with claims := { s.claims with
          table := l ++ { e with state := .cleared, hold := none, clearedOrder := some s.claims.place } :: r
          clearPlace := some s.claims.place } }))) ∧
    (e.life = 0 → (e.state = .waiting ∨ e.state = .ready) →
      exec (.claimLifetimeEnd e.origin e.serial) s =
        .next (s.withClaimTable (l ++ { e with state := .expired, hold := none } :: r))) ∧
    (e.life = 0 → e.state = .serving →
      exec (.claimLifetimeEnd e.origin e.serial) s = .next (State.react (State.arbitrate
        (s.withClaimTable (l ++ { e with state := .expired, hold := none } :: r))))) ∧
    (∀ p rec_, s.plan = some p → e.origin ≠ p.station → s.presentRecord e.origin = some rec_ →
      (s.peers.nth e.origin).fresh = true → (∀ c ∈ rec_.claims, c.serial.toFin ≠ e.serial) → e.miss = 2 →
      (e.state ≠ .serving →
        exec (.withdrawalDetected e.origin e.serial) s = .next (s.withClaimTable (l ++ r))) ∧
      (e.state = .serving →
        exec (.withdrawalDetected e.origin e.serial) s =
          .next (State.react (State.arbitrate (s.withClaimTable (l ++ r))))))) ∧
  (∀ c : Claims, (∀ place, c.clearPlace = some place → c.place = place) ∧
    (c.clearPlace = none → ∀ e ∈ c.table, ∀ n, e.clearedOrder = some n → n < c.place)) ∧
  (∀ (s : State) (p : Plan), ∃ r u,
    r = (((s.originLoss p).withdrawalDetection p).clearedBy p).originWithdrawal p ∧ u = r.entry p ∧
    s.claimsBoundary p = State.react (
      if servingLost s.claims.table u.claims.table || r.entryReady p then u.arbitrate else u)) ∧
  (∀ before after : List ClaimEntry, servingLost before after = true ↔
    ∃ e ∈ before, e.state = .serving ∧
      ∀ x ∈ after, ¬ (x.state = .serving ∧ x.origin = e.origin ∧ x.serial = e.serial)) ∧
  (∀ (s : State) (p : Plan), s.entryReady p = true ↔
    (∃ l kc r t u, s.published = l ++ kc :: r ∧ t = l.foldl (State.offerPublished p) s ∧
      u = t.offerPublished p kc ∧ u.claims.table ≠ t.claims.table ∧
      ∃ e, u.claims.table.getLast? = some e ∧ e.state = .ready) ∨
    (∃ l o r t u, (s.claims.own.filter fun o => (s.findClaim p.station o.serial).isNone) = l ++ o :: r ∧
      t = l.foldl (fun v o => v.offerOwn p o) (s.peerEntry p) ∧ u = t.offerOwn p o ∧
      u.claims.table ≠ t.claims.table ∧ ∃ e, u.claims.table.getLast? = some e ∧ e.state = .ready)) ∧
  (∀ (s : State) (p : Plan),
    s.originLoss p = s.withClaimTable (s.claims.table.filter fun e =>
      e.origin == p.station || (s.peers.nth e.origin).presence == .present) ∧
    s.withdrawalDetection p = s.withClaimTable (s.claims.table.filterMap (s.withdrawalMiss p)) ∧
    s.clearedBy p = { s with claims := { s.claims with own := s.claims.own.map fun o =>
      { o with clearedBy := o.clearedBy ||| bitsOf fun k => s.reportsCleared p o k } } } ∧
    s.originWithdrawal p = { s with claims := { s.claims with
      own := s.claims.own.filter fun o => !(s.withdraws p o)
      table := s.claims.table.filter fun e => !(e.origin == p.station &&
        s.claims.own.any fun o => s.withdraws p o && o.serial == e.serial) } } ∧
    s.entry p = (s.claims.own.filter fun o => (s.findClaim p.station o.serial).isNone).foldl
      (fun t o => t.offerOwn p o) (s.peerEntry p) ∧
    s.peerEntry p = s.published.foldl (State.offerPublished p) s ∧
    (∀ kc, s.offerPublished p kc = if kc.1 = p.station then s else s.offerPeer p kc.1 kc.2) ∧
    s.published = (List.finRange 16).flatMap fun k =>
      ((s.presentRecord k).map fun rec_ => rec_.claims.map fun c => (k, c)).getD []) ∧
  (∀ (s : State) (p : Plan) (e : ClaimEntry),
    (e.origin = p.station ∨ s.presentRecord e.origin = none ∨ (s.peers.nth e.origin).fresh = false →
      s.withdrawalMiss p e = some e) ∧
    (∀ rec_, e.origin ≠ p.station → s.presentRecord e.origin = some rec_ →
      (s.peers.nth e.origin).fresh = true →
      ((∃ c ∈ rec_.claims, c.serial.toFin = e.serial) → s.withdrawalMiss p e = some { e with miss := 0 }) ∧
      ((∀ c ∈ rec_.claims, c.serial.toFin ≠ e.serial) →
        s.withdrawalMiss p e = if e.miss < 2 then some { e with miss := e.miss + 1 } else none))) ∧
  (∀ (s : State) (p : Plan) (o : OwnClaim) (k : StationId),
    (s.reportsCleared p o k = true ↔ ∃ rec_, s.presentRecord k = some rec_ ∧ ∃ q ∈ rec_.reports,
      q.origin.toFin = p.station ∧ q.serial.toFin = o.serial ∧ q.state = 2) ∧
    (s.waitsFor p o.route k = true ↔ ∃ rec_ there here, s.presentRecord k = some rec_ ∧ rec_.mode = 4 ∧
      p.distOf o.route k = some there ∧ p.distOf o.route p.station = some here ∧ here ≤ there) ∧
    (s.withdraws p o = true ↔ o.life = 0 ∨
      (∃ e, s.findClaim p.station o.serial = some e ∧ e.state = .cleared) ∧
        ∀ j, s.waitsFor p o.route j = true → BitSet.has o.clearedBy j = true)) ∧
  ∀ (s : State) (p : Plan) (origin : StationId) (c : ClaimField) (n : RouteId) (q : Priority),
    n = c.route.toFin → q = (if c.emergency then .emergency else .transit) →
    (∀ here there stage, p.distOf n p.station = some here → p.distOf n origin = some there → there ≤ here →
      (p.routes.nth n).stage = some stage →
      (∀ x ∈ s.claims.table, ¬ (x.origin = origin ∧ x.serial = c.serial.toFin)) →
      s.offerPeer p origin c = s.offer
        { origin := origin, serial := c.serial.toFin, route := n, priority := q, stage := stage
          remaining := 62500 * (here - there), arrived := here == there
          life := 62500 * p.lifeOf q, hold := none
          state := if here - there ≤ p.lead.nth n then .ready else .waiting
          clearedOrder := none, miss := 0 }) ∧
    ((p.distOf n p.station = none ∨ p.distOf n origin = none ∨ (p.routes.nth n).stage = none ∨
        (∃ here there, p.distOf n p.station = some here ∧ p.distOf n origin = some there ∧ here < there) ∨
        ∃ x ∈ s.claims.table, x.origin = origin ∧ x.serial = c.serial.toFin) →
      s.offerPeer p origin c = s)

/-- R130, R132 for every step: at most two own claims, no two on one route; at most eight claim table entries, no
two of one identity. -/
def Obligations.ClaimListsStayBounded : Prop :=
  ∀ s t : State, s.claimsSafe → step s = .next t → t.claimsSafe

/-- R139, R141 for every step: all SERVING entries have one local stage, which is the service stage the sequencer
was given and, where it is not IDLE, its target; and outside RUNNING none is SERVING. -/
def Obligations.OneServiceStage : Prop :=
  ∀ s t : State, s.serviceSafe → step s = .next t → t.serviceSafe

/-! ### Lamps and monitor -/

/-- The sense filter, the settle time and the flash phase (R153 to R155): a return past the threshold for tSNF
changes the sensed state of its channel, a settle time of tSET ends, and the fifth boundary changes the phase.
FLASH_PHASE_CHANGE stands inside a boundary; given alone it does that part and nothing else (log 5). Once everything at
a moment has followed, every channel has the command that its source gives: the aspects of R62, red, amber and green,
by kind and state, amber flashing without a plan (R79), and a sign's source (R152). A channel that takes another
command drives it, starts its settle time, also where the expected state of the moment is the same (log 44), returns
its timings to 0 and clears its live flags (R151, R155, R160, R161, R165). A judged channel that agrees with its
expected state returns the timing of that kind to 0 and clears its live flag (R160, R161), and the timing of a latch
check is at 0 wherever its check is disabled or its condition does not hold, but that a watched red holds its timing
while its channel is unjudged (R156 to R159). A switch output that is on drives its pin
low, and in DARK every one is off (R171, R198). -/
def Obligations.SensesSettlingAndPhase : Prop :=
  (∀ (s : State) (c : ChanId) (level : Bool) (held : Nat),
    (s.ctrl.mode = .dark → exec (.senseChange c level held) s = .next { s with lamps := { s.lamps with
      channels := s.lamps.channels.put c { s.lamps.channels.nth c with
        sense := { (s.lamps.channels.nth c).sense with raw := level } } } }) ∧
    (s.ctrl.mode ≠ .dark → 625 ≤ held → s.selfWatching = false ∨ level = false ∨ s.sensed c = true →
      ∃ t, exec (.senseChange c level held) s = .next t ∧ t.sensed c = level ∧
        t.lamps.channels.nth c = Chan.agree s.lamps.phase
          { s.lamps.channels.nth c with sense := { raw := level, time := 625, level := some level } } ∧
        t.monitorSync = t ∧
        (∀ e, e ≠ c → t.lamps.channels.nth e = s.lamps.channels.nth e) ∧
        t.lamps.conflict = s.lamps.conflict ∧ t.lamps.redOut = s.lamps.redOut ∧
        t = { s with lamps := t.lamps }) ∧
    (s.ctrl.mode ≠ .dark → held < 625 →
      ∃ t, exec (.senseChange c level held) s = .next t ∧ t.sensed c = s.sensed c ∧
        t.lamps.channels.nth c = Chan.agree s.lamps.phase
          { s.lamps.channels.nth c with sense := { (s.lamps.channels.nth c).sense with raw := level, time := held } } ∧
        t.monitorSync = t ∧ (∀ e, e ≠ c → t.lamps.channels.nth e = s.lamps.channels.nth e) ∧
        t.lamps.conflict = s.lamps.conflict ∧ t.lamps.redOut = s.lamps.redOut ∧ t = { s with lamps := t.lamps }) ∧
    (∀ n, (s.lamps.channels.nth c).settle = some n → 3125 ≤ n →
      ∃ t, exec (.settleEnd c) s = .next t ∧ (t.lamps.channels.nth c).settle = none ∧
        t.lamps.channels.nth c = Chan.agree s.lamps.phase { s.lamps.channels.nth c with settle := none } ∧
        t.monitorSync = t ∧ t.sensed c = s.sensed c ∧
        (∀ e, e ≠ c → t.lamps.channels.nth e = s.lamps.channels.nth e) ∧ t = { s with lamps := t.lamps }) ∧
    (s.lamps.flashCount = 4 →
      ∃ t, exec .flashPhaseChange s = .next t ∧ t.lamps.phase = !s.lamps.phase ∧ t.lamps.flashCount = 0 ∧
        (∀ e, (t.lamps.channels.nth e).command = (s.lamps.channels.nth e).command ∧
          ((s.lamps.channels.nth e).command = .flash →
            (t.lamps.channels.nth e).output = t.lamps.phase ∧ (t.lamps.channels.nth e).settle = some 0) ∧
          ((s.lamps.channels.nth e).command ≠ .flash → t.lamps.channels.nth e = s.lamps.channels.nth e)) ∧
        t.monitorSync = t ∧ t = { s with lamps := t.lamps })) ∧
  (∀ (c : Chan) (phase : Bool), c.command.expected phase =
      (match c.command with
        | .on => true
        | .off => false
        | .flash => phase) ∧
    (c.settle = none → c.command.expected phase = false → c.sensed = false →
      c.agree phase = { c with unTime := 0, unLive := false }) ∧
    (c.settle = none → c.command.expected phase = true → c.sensed = true →
      c.agree phase = { c with loTime := 0, loLive := false }) ∧
    (c.settle ≠ none ∨ c.command.expected phase ≠ c.sensed → c.agree phase = c)) ∧
  (∀ s : State, s.react.monitorSync = s.react ∧ s.monitorSync = { s with lamps := { s.lamps with
      pairs := s.monitorSync.lamps.pairs, greens := s.monitorSync.lamps.greens
      reds := s.monitorSync.lamps.reds } } ∧
    (∀ a b, (s.monitorSync.lamps.pairs.nth a).nth b =
      if s.pairLit a b = true then (s.lamps.pairs.nth a).nth b else 0) ∧
    ∀ g, s.monitorSync.lamps.greens.nth g = (if s.greenLit g = true then s.lamps.greens.nth g else 0) ∧
      s.monitorSync.lamps.reds.nth g =
        if (s.ctrl.mode = .allRed ∨ s.ctrl.mode = .running) ∧ (s.groupPlan g).kind = .vehicle ∧
            (s.groups.nth g).state = .red ∧
            ¬ ((s.lamps.channels.nth (chanOf g 0)).settle = none ∧ s.sensed (chanOf g 0) = true)
        then s.lamps.reds.nth g else 0) ∧
  (∀ (s : State) (c : ChanId), (s.react.lamps.channels.nth c).command = s.react.commandOf c) ∧
  (∀ (s : State) (c : ChanId), (s.ctrl.mode = .dark → s.switchPin c = true) ∧
    (s.ctrl.mode ≠ .dark → s.switchPin c = !(s.lamps.channels.nth c).output)) ∧
  (∀ s : State, s.lampSync =
    State.monitorSync { s with lamps := { s.lamps with channels := s.lampSync.lamps.channels } }) ∧
  (∀ (s : State) (c : ChanId),
    (s.commandOf c = (s.lamps.channels.nth c).command →
      s.lampSync.lamps.channels.nth c = (s.lamps.channels.nth c).agree s.lamps.phase) ∧
    (s.commandOf c ≠ (s.lamps.channels.nth c).command →
      s.lampSync.lamps.channels.nth c = { s.lamps.channels.nth c with
        command := s.commandOf c
        output := (match s.commandOf c with
          | .on => true
          | .off => false
          | .flash => s.lamps.phase)
        settle := some 0, unTime := 0, loTime := 0, unLive := false, loLive := false })) ∧
  (∀ (s : State) (p : Plan) (g : GroupId) (a : FlashAspect) (red amber green : Command), s.plan = some p →
    red = s.commandOf (chanOf g 0) → amber = s.commandOf (chanOf g 1) → green = s.commandOf (chanOf g 2) →
    (p.groups.nth g).aspect = a →
    ((p.groups.nth g).kind = .unused → (red, amber, green) = (.off, .off, .off)) ∧
    ((p.groups.nth g).kind = .vehicle → (red, amber, green) =
      match (s.groups.nth g).state with
      | .red => (.on, .off, .off)
      | .prepare => (.on, .on, .off)
      | .green => (.off, .off, .on)
      | .clearing => (.off, .on, .off)
      | .flashing => (if a = .red then .flash else .off, if a = .amber then .flash else .off, .off)
      | .dark => (.off, .off, .off)) ∧
    ((p.groups.nth g).kind = .walk → (red, amber, green) =
      match (s.groups.nth g).state with
      | .red => (.on, .off, .off)
      | .green => (.off, .off, .on)
      | .clearing => (.off, .off, .flash)
      | .flashing => (if a = .red then .flash else .off, .off, .off)
      | .prepare | .dark => (.off, .off, .off))) ∧
  (∀ (s : State) (g : GroupId), s.plan = none →
    s.commandOf (chanOf g 0) = .off ∧ s.commandOf (chanOf g 2) = .off ∧
    s.commandOf (chanOf g 1) = if (s.groups.nth g).state = .flashing then .flash else .off) ∧
  ∀ (s : State) (k : SignId),
    (s.plan = none ∨ s.ctrl.mode = .check → s.commandOf (chanOfSign k) = .off) ∧
    ∀ p, s.plan = some p → s.ctrl.mode ≠ .check → s.commandOf (chanOfSign k) =
      if (match p.signs.nth k with
        | .none => false
        | .groupGreen g => (s.groups.nth g).state == .green
        | .groupNotRed g => (s.groups.nth g).state == .prepare || (s.groups.nth g).state == .green ||
            (s.groups.nth g).state == .clearing
        | .callWaiting g => !(s.callers.nth g == 0)
        | .claimServing n => s.claims.table.any fun e => e.route == n && e.state == .serving
        | .claimServingAny => s.claims.table.any fun e => e.state == .serving
        | .flashing => s.ctrl.mode == .startFlash || s.ctrl.mode == .panelFlash || s.ctrl.mode == .faultFlash) = true
      then .on else .off

/-- CONFLICT, GREEN_IN_FLASH and RED_OUT at their persistence times (R156 to R158, R162, R177): the latch that
is clear is set with its cause, and the fault event leaves the station in FAULT_FLASH with the reason; a latch
that is set stays, and nothing changes. A red-out due at the moment of a conflict sets its own latch and reason too,
and the other way round (R162, R177); which of several due then writes the record is free (log 16). The reason is the
first fault where the event is taken outside FAULT_FLASH with no reason held; otherwise the first fault stays (R177). In
ALL_RED and RUNNING a pair is lit while its groups conflict and each has its green or, but for WALK, its amber sensed on
(R156), and a VEHICLE group's red is dark while the group is RED, its red judged and sensed off (R158); in the flash modes
every green sensed on is lit, whatever its group (R157). Each event is the latch with its cause and the fault event,
then the other latch where that is due, then what follows; a fault event adds its reason and, outside FAULT_FLASH,
enters that mode, as FlashRequestByMode has every entry (R169, R177). A channel check at its time sets the live and the sticky flag
of its kind, and nothing else (R160, R161). -/
def Obligations.ChecksSetLatchesAndFlags : Prop :=
  (∀ (s : State) (a b : GroupId),
    (s.pairLit a b = true ↔ (s.ctrl.mode = .allRed ∨ s.ctrl.mode = .running) ∧ s.conflicts a b = true ∧
      ∀ g, g = a ∨ g = b → s.sensed (chanOf g 2) = true ∨
        (s.groupPlan g).kind ≠ .walk ∧ s.sensed (chanOf g 1) = true) ∧
    (s.greenLit a = true ↔
      (s.ctrl.mode = .startFlash ∨ s.ctrl.mode = .panelFlash ∨ s.ctrl.mode = .faultFlash) ∧
        s.sensed (chanOf a 2) = true) ∧
    (s.redDark a = true ↔ (s.ctrl.mode = .allRed ∨ s.ctrl.mode = .running) ∧
      (s.groupPlan a).kind = .vehicle ∧ (s.groups.nth a).state = .red ∧
      (s.lamps.channels.nth (chanOf a 0)).settle = none ∧ s.sensed (chanOf a 0) = false)) ∧
  (∀ (s : State) (r : Reason), s.faultEvent r =
    if s.ctrl.mode = .faultFlash then { s with ctrl := { s.ctrl with reasons := s.ctrl.reasons.add r } }
    else State.enterMode { s with ctrl := { s.ctrl with
      reasons := s.ctrl.reasons.add r
      firstFault := if s.ctrl.reasons = { conflict := false, redOut := false, selfCheck := false, plan := false }
        then some r else s.ctrl.firstFault } } .faultFlash) ∧
  (∀ r : Reasons, r.add .conflict = { r with conflict := true } ∧ r.add .redOut = { r with redOut := true } ∧
    r.add .selfCheck = { r with selfCheck := true } ∧ r.add .plan = { r with plan := true }) ∧
  (∀ s : State,
    (∀ c, s.latchConflict c = if s.lamps.conflict = none
      then State.faultEvent { s with lamps := { s.lamps with conflict := some c } } .conflict else s) ∧
    (∀ g, s.latchRedOut g = if s.lamps.redOut = none
      then State.faultEvent { s with lamps := { s.lamps with redOut := some g } } .redOut else s) ∧
    (s.alsoRedOut [] = s ∧ ∀ l, l ≠ [] → ∃ g ∈ l,
      s.alsoRedOut l = State.latchRedOut { s with freeCount := s.freeCount + 1 } g) ∧
    (s.alsoConflict [] = s ∧ ∀ l, l ≠ [] → ∃ q ∈ l,
      s.alsoConflict l = State.latchConflict { s with freeCount := s.freeCount + 1 } (.conflict q.1 q.2)) ∧
    (∀ g, g ∈ s.dueReds ↔ s.redDark g = true ∧ 31250 ≤ s.lamps.reds.nth g) ∧
    (∀ q, q ∈ s.duePairs ↔ q.1 < q.2 ∧ s.pairLit q.1 q.2 = true ∧ 12500 ≤ (s.lamps.pairs.nth q.1).nth q.2)) ∧
  (∀ (s : State) (a b : GroupId),
    (a < b → s.pairLit a b = true → 12500 ≤ (s.lamps.pairs.nth a).nth b →
      (s.lamps.conflict = none → ∃ t, exec (.conflict a b) s = .next t ∧
        t = State.react (State.alsoRedOut s.dueReds (s.latchConflict (.conflict a b))) ∧
        t.lamps.conflict = some (.conflict a b) ∧ t.ctrl.mode = .faultFlash ∧ t.ctrl.reasons.conflict = true ∧
        t.ctrl.firstFault = (if s.ctrl.mode ≠ .faultFlash ∧
          s.ctrl.reasons = { conflict := false, redOut := false, selfCheck := false, plan := false }
          then some .conflict else s.ctrl.firstFault) ∧
        (s.lamps.redOut ≠ none ∨ (∀ g, s.redDark g = true → s.lamps.reds.nth g < 31250) →
          t.lamps.redOut = s.lamps.redOut ∧ t.ctrl.reasons = { s.ctrl.reasons with conflict := true }) ∧
        (s.lamps.redOut = none → (∃ g, s.redDark g = true ∧ 31250 ≤ s.lamps.reds.nth g) →
          ∃ g, s.redDark g = true ∧ 31250 ≤ s.lamps.reds.nth g ∧ t.lamps.redOut = some g ∧
            t.ctrl.reasons.redOut = true) ∧
        t.line = s.line ∧ t.cycle = s.cycle ∧ t.plan = s.plan) ∧
      (s.lamps.conflict ≠ none → exec (.conflict a b) s = .next s)) ∧
    (s.greenLit a = true → 12500 ≤ s.lamps.greens.nth a →
      (s.lamps.conflict = none → ∃ t, exec (.greenInFlash a) s = .next t ∧
        t = State.react (s.latchConflict (.greenInFlash a)) ∧
        t.lamps.conflict = some (.greenInFlash a) ∧ t.ctrl.mode = .faultFlash ∧ t.ctrl.reasons.conflict = true ∧
        t.ctrl.firstFault = (if s.ctrl.mode ≠ .faultFlash ∧
          s.ctrl.reasons = { conflict := false, redOut := false, selfCheck := false, plan := false }
          then some .conflict else s.ctrl.firstFault) ∧
        t.lamps.redOut = s.lamps.redOut ∧ t.line = s.line ∧ t.cycle = s.cycle ∧ t.plan = s.plan) ∧
      (s.lamps.conflict ≠ none → exec (.greenInFlash a) s = .next s)) ∧
    (s.redDark a = true → 31250 ≤ s.lamps.reds.nth a →
      (s.lamps.redOut = none → ∃ t, exec (.redOut a) s = .next t ∧
        t = State.react (State.alsoConflict s.duePairs (s.latchRedOut a)) ∧
        t.lamps.redOut = some a ∧ t.ctrl.mode = .faultFlash ∧ t.ctrl.reasons.redOut = true ∧
        t.ctrl.firstFault = (if s.ctrl.mode ≠ .faultFlash ∧
          s.ctrl.reasons = { conflict := false, redOut := false, selfCheck := false, plan := false }
          then some .redOut else s.ctrl.firstFault) ∧
        (s.lamps.conflict ≠ none ∨
            (∀ x y, x < y → s.pairLit x y = true → (s.lamps.pairs.nth x).nth y < 12500) →
          t.lamps.conflict = s.lamps.conflict ∧ t.ctrl.reasons = { s.ctrl.reasons with redOut := true }) ∧
        (s.lamps.conflict = none →
          (∃ x y, x < y ∧ s.pairLit x y = true ∧ 12500 ≤ (s.lamps.pairs.nth x).nth y) →
          ∃ x y, x < y ∧ s.pairLit x y = true ∧ 12500 ≤ (s.lamps.pairs.nth x).nth y ∧
            t.lamps.conflict = some (.conflict x y) ∧ t.ctrl.reasons.conflict = true) ∧
        t.line = s.line ∧ t.cycle = s.cycle ∧ t.plan = s.plan) ∧
      (s.lamps.redOut ≠ none → exec (.redOut a) s = .next s))) ∧
  (∀ (s : State) (c : ChanId),
    (31250 ≤ (s.lamps.channels.nth c).unTime → (s.lamps.channels.nth c).unLive = false →
      exec (.uncommandedOn c) s = .next { s with lamps := { s.lamps with
        channels := s.lamps.channels.put c
          { s.lamps.channels.nth c with unLive := true, unSticky := true } } }) ∧
    (62500 ≤ (s.lamps.channels.nth c).loTime → (s.lamps.channels.nth c).loLive = false →
      exec (.lampOut c) s = .next { s with lamps := { s.lamps with
        channels := s.lamps.channels.put c
          { s.lamps.channels.nth c with loLive := true, loSticky := true } } }))

/-- The self-check (R165, R173): after tSET it judges, and fails on a channel that is on; after tCK with every
channel off it passes, check passed is set, and the station goes to START_FLASH, and on to PANEL_FLASH where the
flash request is set (R175). A fault event is as ChecksSetLatchesAndFlags has it, the entry to START_FLASH with its
judgement as FlashRequestByMode has it. Which of several channels that are on is
the first failing one is free (log 16). -/
def Obligations.SelfCheckPassesOrFails : Prop :=
  ∀ s : State,
    (s.lamps.selfCheck = .running → s.lamps.selfJudging = false → 3125 ≤ s.lamps.selfTime →
      ((∀ c, s.sensed c = false) →
        exec .selfCheckSettleEnd s = .next { s with lamps := { s.lamps with selfJudging := true } }) ∧
      ((∃ c, s.sensed c = true) → ∃ t c, exec .selfCheckSettleEnd s = .next t ∧ s.sensed c = true ∧
        t = State.react (State.faultEvent { s with
          freeCount := s.freeCount + 1
          lamps := { s.lamps with selfCheck := .failed, firstFailing := some c, selfJudging := false } } .selfCheck) ∧
        t.lamps.selfCheck = .failed ∧ t.lamps.firstFailing = some c ∧
        t.lamps.checkPassed = s.lamps.checkPassed ∧ t.ctrl.mode = .faultFlash ∧
        t.ctrl.reasons.selfCheck = true ∧ t.line = s.line ∧ t.cycle = s.cycle ∧ t.plan = s.plan)) ∧
    (s.ctrl.mode = .check → s.lamps.selfCheck = .running → s.lamps.selfJudging = true →
      62500 ≤ s.lamps.selfTime → (∀ c, s.sensed c = false) →
      ∃ t, exec .selfCheckPass s = .next t ∧
        t = State.react (State.enterJudged { s with lamps := { s.lamps with
          selfCheck := .passed, selfJudging := false, checkPassed := true } } .startFlash) ∧ t.lamps.selfCheck = .passed ∧ t.lamps.checkPassed = true ∧
        t.ctrl.mode = (if s.flashRequest then .panelFlash else .startFlash) ∧
        (s.flashRequest = false → t.ctrl.timer = some 0) ∧ t.ctrl.reasons = s.ctrl.reasons ∧
        t.line = s.line ∧ t.cycle = s.cycle ∧ t.plan = s.plan) ∧
    (∀ c held, s.ctrl.mode = .check → s.lamps.selfCheck = .running → s.lamps.selfJudging = true →
      s.sensed c = false → 625 ≤ held →
      ∃ t u, exec (.senseChange c true held) s = .next t ∧
        u = State.monitorSync { s with lamps := { s.lamps with
          channels := s.lamps.channels.put c (Chan.agree s.lamps.phase { s.lamps.channels.nth c with
            sense := { raw := true, time := 625, level := some true } }) } } ∧
        t = State.react (State.faultEvent { u with lamps := { u.lamps with
          selfCheck := .failed, firstFailing := some c, selfJudging := false } } .selfCheck) ∧
        t.lamps.selfCheck = .failed ∧ t.lamps.firstFailing = some c ∧ t.ctrl.mode = .faultFlash ∧ t.ctrl.reasons.selfCheck = true)

/-- R178: the law of the latches, for every step, with the ways in which a latch is cleared, FAULT_FLASH with
reason PLAN is left, and the FAULT output is driven, its pin low where it is asserted (R164, R198). -/
def Obligations.LatchedFaultsHoldFaultFlash : Prop :=
  (∀ s t : State, s.latchSafe → step s = .next t → t.latchSafe) ∧
  State.reset.latchSafe ∧
  (∀ (c : Instr) (s t : State), exec c s = .next t → s.latchSafe →
    (s.lamps.conflict.isSome = true ∧ t.lamps.conflict = none ∨
      s.lamps.redOut.isSome = true ∧ t.lamps.redOut = none) →
    (∃ cause, c = .startUpReset cause ∧ t.ctrl.mode = .dark) ∨
    (∃ pin held, c = .panelFaultReset pin held ∧ t.ctrl.mode = .check ∧ s.ctrl.reasons.plan = false)) ∧
  (∀ (c : Instr) (s t : State), exec c s = .next t → s.ctrl.mode = .faultFlash → t.ctrl.mode ≠ .faultFlash →
    (∃ cause, c = .startUpReset cause) ∨
    (∃ pin held, c = .panelFaultReset pin held ∧ s.ctrl.reasons.plan = false ∧
      t.lamps.conflict = none ∧ t.lamps.redOut = none)) ∧
  ∀ s : State, (s.ctrl.mode = .faultFlash → s.faultOutput = true) ∧
    (s.ctrl.mode ≠ .faultFlash → s.ctrl.mode ≠ .dark → s.faultOutput = (s.anySticky && s.lamps.phase)) ∧
    s.faultPin = !s.faultOutput

/-! ### Station modes and panel -/

/-- The end of tSF leads to ALL_RED, where a set flash request is judged (R174, R175), and the end of tAR to RUNNING
with everything that follows, the start change first (R98, R174); a set flash request is judged then (R175). The entry
to RUNNING begins the committed start change to the main stage, with a service stage other than it held as its
replacement target (R98). A change (R93, R96) closes the GREEN groups - a replaced one the CLEARING too - that the new
stage lacks, opens those of it that are not GREEN, and is committed at once where there are none; it commits when one
of its opening set leaves RED (R94) and completes with every group of the new stage GREEN and its closing set RED
(R95); in DWELL a stage that may end is followed by the first eligible stage with demand (R87, R90, R91, R92). In
coordinated operation a stage other than the main one is eligible from local position pREL on and while its longest
minimum green, of its groups that are not GREEN, ends before its force-off point (R91). A request acts on a group by
its state and held request, and where the tables give it no effect the group stays as it is (R65, R70). -/
def Obligations.ModeTimerEndsAndStartChange : Prop :=
  (∀ (s : State) (p : Plan) (n : Nat), s.plan = some p → s.ctrl.timer = some n →
    (s.ctrl.mode = .startFlash → 6250 * p.tSF ≤ n →
      ∃ t, exec .startFlashEnd s = .next t ∧ t = State.react (s.enterJudged .allRed) ∧
        (s.flashRequest = false → t.ctrl.mode = .allRed ∧ t.ctrl.timer = some 0) ∧
        (s.flashRequest = true → t.ctrl.mode = .panelFlash ∧ t.ctrl.timer = none) ∧
        t.ctrl.reasons = s.ctrl.reasons ∧ t.line = s.line ∧ t.cycle = s.cycle ∧ t.plan = s.plan) ∧
    (s.ctrl.mode = .allRed → 6250 * p.tAR ≤ n →
      ∃ t, exec .allRedEnd s = .next t ∧
        (s.flashRequest = false →
          t = State.react (State.lampSync (State.arbitrate (State.startChange
            { s with ctrl := { s.ctrl with mode := .running, timer := none, wait := false } }))) ∧
          t.ctrl.mode = .running ∧ t.ctrl.timer = none ∧ t.ctrl.wait = false) ∧
        (s.flashRequest = true →
          t = State.react (State.flashSet (State.react (State.lampSync (State.arbitrate (State.startChange
            { s with ctrl := { s.ctrl with mode := .running, timer := none, wait := false } })))))) ∧
        t.ctrl.reasons = s.ctrl.reasons ∧ t.line = s.line ∧ t.cycle = s.cycle ∧ t.plan = s.plan)) ∧
  (∀ (s : State) (m : StageId), s.mainStage = some m →
    s.startChange.seq = { s.seq with
      st := .change
        { fromStage := none, toStage := m, closing := 0, opening := s.stageGroups m, committed := true
          replacement := if s.seq.service = some m then none else s.seq.service } } ∧
    ∀ g, s.startChange.groups.nth g =
      if s.used g then
        if BitSet.has (s.stageGroups m) g then (s.groups.nth g).openRequest else (s.groups.nth g).closeRequest
      else s.groups.nth g) ∧
  (∀ (s : State) (a t : StageId) (c : Change),
    (∃ closing opening, (s.beginChange a t).seq = { s.seq with
        st := .change { fromStage := some a, toStage := t, closing := closing, opening := opening
                        committed := opening == 0, replacement := none }
        forceOff := false } ∧
      (∀ g, BitSet.has closing g = ((s.groups.nth g).state == .green && !BitSet.has (s.stageGroups t) g)) ∧
      (∀ g, BitSet.has opening g = (BitSet.has (s.stageGroups t) g && !((s.groups.nth g).state == .green)))) ∧
    (∃ closing opening, (s.replaceChange c t).seq = { s.seq with
        st := .change { fromStage := c.fromStage, toStage := t, closing := closing, opening := opening
                        committed := opening == 0, replacement := none }
        forceOff := false } ∧
      (∀ g, BitSet.has closing g = (((s.groups.nth g).state == .green || (s.groups.nth g).state == .clearing) &&
        !BitSet.has (s.stageGroups t) g)) ∧
      (∀ g, BitSet.has opening g = (BitSet.has (s.stageGroups t) g && !((s.groups.nth g).state == .green)))) ∧
    (∀ g,
      (s.beginChange a t).groups.nth g = (if s.used g then
        if BitSet.has (s.stageGroups t) g then (s.groups.nth g).openRequest else (s.groups.nth g).closeRequest
      else s.groups.nth g) ∧
      (s.replaceChange c t).groups.nth g = (s.beginChange a t).groups.nth g) ∧
    (∃ u : State, u = { s with seq := { s.seq with
        st := .dwell c.toStage
        release := if s.mainStage = some c.toStage then false else s.seq.release } } ∧
      (c.replacement = none ∨ c.replacement = some c.toStage → s.completeChange c = u) ∧
      (∀ x, c.replacement = some x → x ≠ c.toStage → s.completeChange c = u.beginChange c.toStage x))) ∧
  (∀ s : State,
    (s.seq.st = .idle → s.seqStep = none) ∧
    (∀ c, s.seq.st = .change c →
      (c.committed = false →
        (∃ g, BitSet.has c.opening g = true ∧
          ((s.groups.nth g).state = .prepare ∨ (s.groups.nth g).state = .green)) →
        s.seqStep = some { s with seq := { s.seq with st := .change { c with committed := true } } }) ∧
      ((c.committed = true ∨ ∀ g, BitSet.has c.opening g = true →
          (s.groups.nth g).state ≠ .prepare ∧ (s.groups.nth g).state ≠ .green) →
        (((∀ g, BitSet.has (s.stageGroups c.toStage) g = true → (s.groups.nth g).state = .green) ∧
            ∀ g, BitSet.has c.closing g = true → (s.groups.nth g).state = .red) →
          s.seqStep = some (s.completeChange c)) ∧
        (¬ ((∀ g, BitSet.has (s.stageGroups c.toStage) g = true → (s.groups.nth g).state = .green) ∧
            ∀ g, BitSet.has c.closing g = true → (s.groups.nth g).state = .red) → s.seqStep = none))) ∧
    (∀ t, s.seq.st = .dwell t →
      (∀ u, s.mayEnd t = true → s.selectTarget t = some u → s.seqStep = some (s.beginChange t u)) ∧
      (s.mayEnd t = false ∨ s.selectTarget t = none → s.seqStep = none))) ∧
  (∀ (s : State) (t : StageId),
    (s.mayEnd t = true ↔ s.manualFlag = false ∧ s.seq.service ≠ some t ∧ s.ctrl.wait = false ∧
      if s.coordinatedOp = true ∧ s.mainStage = some t then s.seq.release = true
      else (∀ g, BitSet.has (s.stageGroups t) g = true → (s.groups.nth g).minDone = true ∧
          ((s.groups.nth g).gapped = true ∨ (s.groups.nth g).maxDone = true)) ∨
        s.coordinatedOp = true ∧ s.seq.forceOff = true ∧
          ∀ g, BitSet.has (s.stageGroups t) g = true → (s.groups.nth g).minDone = true) ∧
    (s.demand t = true ↔ s.coordinatedOp = true ∧ s.mainStage = some t ∨
      ∃ g, BitSet.has (s.stageGroups t) g = true ∧ (s.groups.nth g).state ≠ .green ∧ s.hasCall g = true) ∧
    (∀ u, s.selectTarget t = some u → s.demand u = true ∧ s.eligible u = true ∧
      ∃ l r, searchOrder s.sequence t = l ++ u :: r ∧ ∀ x ∈ l, ¬ (s.demand x = true ∧ s.eligible x = true)) ∧
    (s.selectTarget t = none → ∀ x ∈ searchOrder s.sequence t, ¬ (s.demand x = true ∧ s.eligible x = true)) ∧
    (∀ l r, s.sequence = l ++ t :: r → t ∉ l → searchOrder s.sequence t = r ++ l) ∧
    (t ∉ s.sequence → searchOrder s.sequence t = s.sequence)) ∧
  (∀ (s : State) (t : StageId),
    (s.coordinatedOp = false ∨ s.mainStage = some t → s.eligible t = true) ∧
    (∀ g, BitSet.has (s.stageGroups t) g = true → (s.groups.nth g).state ≠ .green →
      (s.groupPlan g).tMIN ≤ s.tMINOf t) ∧
    (s.tMINOf t = 0 ∨ ∃ g, BitSet.has (s.stageGroups t) g = true ∧ (s.groups.nth g).state ≠ .green ∧
      (s.groupPlan g).tMIN = s.tMINOf t) ∧
    ∀ p d, s.plan = some p → p.patternOf s.cycle.active = some d → s.coordinatedOp = true → s.mainStage ≠ some t →
      (s.eligible t = true ↔ d.pREL ≤ s.localPosition ∧ s.localPosition + s.tMINOf t < d.pFO.nth t) ∧
      (s.localPosition + 1 = d.pREL → s.eligible t = false) ∧
      (s.localPosition = d.pREL → d.pREL + s.tMINOf t < d.pFO.nth t → s.eligible t = true) ∧
      (d.pREL ≤ s.localPosition → s.localPosition + s.tMINOf t + 1 = d.pFO.nth t → s.eligible t = true) ∧
      (s.localPosition + s.tMINOf t = d.pFO.nth t → s.eligible t = false)) ∧
  ∀ r : Group,
    (r.held = .none → r.state = .red ∨ r.state = .clearing → r.openRequest = { r with held := .open }) ∧
    (r.held = .close → r.state = .prepare ∨ r.state = .green → r.openRequest = { r with held := .none }) ∧
    (r.held = .none ∧ (r.state = .prepare ∨ r.state = .green) ∨
      r.held = .open ∧ (r.state = .red ∨ r.state = .clearing) ∨ r.state = .flashing ∨ r.state = .dark →
      r.openRequest = r) ∧
    (r.held = .none → r.state = .prepare ∨ r.state = .green ∧ r.minDone = false →
      r.closeRequest = { r with held := .close }) ∧
    (r.held = .none → r.state = .green → r.minDone = true → r.closeRequest =
      { state := .clearing, held := .none, time := 0, minDone := false, gapped := false, gap := 0
        maxRunning := false, maxLeft := 0, maxDone := false }) ∧
    (r.held = .open → r.state = .red ∨ r.state = .clearing → r.closeRequest = { r with held := .none }) ∧
    (r.held = .none ∧ (r.state = .red ∨ r.state = .clearing) ∨
      r.held = .close ∧ (r.state = .prepare ∨ r.state = .green) ∨ r.state = .flashing ∨ r.state = .dark →
      r.closeRequest = r)

/-- The flash request, judged at its change by mode (R175, R176): from START_FLASH, ALL_RED and a RUNNING that
stands still PANEL_FLASH at once; a RUNNING with moving groups stays RUNNING with the flash entry wait in force, and
only where the groups that follow this moment leave none of them moving is it PANEL_FLASH; cleared, it cancels the
wait and leads from PANEL_FLASH to ALL_RED; in the other modes it has no effect on the mode. A change that has not
held for tPF, a level that the request has already, and any level in DARK change the filter alone, and a filter without
its supply follows its pin alone (R171, R193; log 24). At the entries to START_FLASH and ALL_RED a request that is set
is judged at once (R175). The switch is on while its pin is low (R198). A change of mode sets the
timer (R174), ends the flash entry wait and forces the groups where the force input changes with it (R169): DARK,
FLASHING, or RED at the release, with no request held, the time in state at 0 and the green period cleared, an UNUSED
group apart while a plan is held, all sixteen without one (R76 to R79); the sequencer begins or drops its change (R85,
R98), the self-check starts at CHECK (R165), and arbitration and the lamps follow (R137, R151). -/
def Obligations.FlashRequestByMode : Prop :=
  (∀ m : Mode, m.force =
    match m with
    | .dark | .loading | .check => .dark
    | .startFlash | .panelFlash | .faultFlash => .flashing
    | .allRed | .running => .none) ∧
  (∀ (s : State) (f : Force), s.forceAll f = { s with groups := (s.forceAll f).groups } ∧
    ∀ g,
      (s.plan = none ∨ (s.groupPlan g).kind ≠ .unused → (s.forceAll f).groups.nth g =
        { state := match f with
            | .none => .red
            | .flashing => .flashing
            | .dark => .dark
          held := .none, time := 0, minDone := false, gapped := false, gap := 0, maxRunning := false, maxLeft := 0
          maxDone := false }) ∧
      (s.plan ≠ none → (s.groupPlan g).kind = .unused → (s.forceAll f).groups.nth g = s.groups.nth g)) ∧
  (∀ (s : State) (old new : Mode), s.forceChange old new = if new.force = old.force then s else s.forceAll new.force) ∧
  (∀ (s : State) (m : Mode), ∃ u v w,
    u = State.forceChange { s with ctrl := { s.ctrl with
      mode := m, timer := if m = .startFlash ∨ m = .allRed then some 0 else none, wait := false } } s.ctrl.mode m ∧
    v = (if m = .running then u.startChange
      else if s.ctrl.mode = .running then
        { u with seq := { u.seq with st := .idle, release := false, forceOff := false } }
      else u) ∧
    w = (if m = .check then
        { v with lamps := { v.lamps with
          selfCheck := .running, selfTime := 0, selfJudging := false, firstFailing := none, checkPassed := false } }
      else v) ∧
    s.enterMode m = w.arbitrate.lampSync ∧
    (m ≠ .running → (s.enterMode m).groups = (s.forceChange s.ctrl.mode m).groups)) ∧
  (∀ (s : State) (m : Mode),
    s.enterJudged m = (if s.flashRequest = true then (s.enterMode m).flashSet else s.enterMode m) ∧
    s.flashSet =
      if s.ctrl.mode = .startFlash ∨ s.ctrl.mode = .allRed ∨ s.ctrl.mode = .running ∧ s.movingCount = 0
      then s.enterMode .panelFlash
      else if s.ctrl.mode = .running then { s with ctrl := { s.ctrl with wait := true } } else s) ∧
  (∀ (s : State) (pin : Bool) (held : Nat),
    (s.supplyOk = false → exec (.flashRequestChange pin held) s =
      .next { s with panel := { s.panel with flash := { s.panel.flash with raw := !pin } } }) ∧
    (s.supplyOk = true → 3125 ≤ held → s.ctrl.mode = .dark ∨ s.flashRequest ≠ pin →
      exec (.flashRequestChange pin held) s = .next { s with panel := { s.panel with
        flash := { raw := !pin, time := 3125, level := some !pin } } })) ∧
  ∀ (s : State) (held : Nat), s.supplyOk = true →
    (∀ pin, held < 3125 → exec (.flashRequestChange pin held) s = .next { s with panel := { s.panel with
      flash := { raw := !pin, time := held, level := s.panel.flash.level } } }) ∧
    (s.ctrl.mode ≠ .dark → s.flashRequest = false → 3125 ≤ held →
      ∃ t, exec (.flashRequestChange false held) s = .next t ∧
      t = State.react (State.flashSet { s with panel := t.panel }) ∧
      t.panel = { s.panel with flash := { raw := true, time := 3125, level := some true } } ∧
      t.flashRequest = true ∧ t.line = s.line ∧ t.cycle = s.cycle ∧ t.plan = s.plan ∧
      (s.ctrl.mode = .startFlash ∨ s.ctrl.mode = .allRed ∨ (s.ctrl.mode = .running ∧ s.movingCount = 0) →
        t.ctrl.mode = .panelFlash ∧ t.ctrl.timer = none ∧ t.ctrl.wait = false) ∧
      (s.ctrl.mode = .running → s.movingCount ≠ 0 →
        ∃ u : State, u = { s with panel := t.panel, ctrl := { s.ctrl with wait := true } } ∧ t = u.react ∧
          t.ctrl = if (State.settle 64 u.follow).movingCount = 0
            then { s.ctrl with mode := .panelFlash, timer := none, wait := false }
            else { s.ctrl with wait := true }) ∧
      (s.ctrl.mode = .loading ∨ s.ctrl.mode = .check ∨ s.ctrl.mode = .panelFlash ∨ s.ctrl.mode = .faultFlash →
        t.ctrl = s.ctrl)) ∧
    (s.ctrl.mode ≠ .dark → s.flashRequest = true → 3125 ≤ held →
      ∃ t, exec (.flashRequestChange true held) s = .next t ∧
      t = State.react
        (if s.ctrl.mode = .running then { s with panel := t.panel, ctrl := { s.ctrl with wait := false } }
        else if s.ctrl.mode = .panelFlash then State.enterMode { s with panel := t.panel } .allRed
        else { s with panel := t.panel }) ∧
      t.panel = { s.panel with flash := { raw := false, time := 3125, level := some false } } ∧
      t.flashRequest = false ∧ t.line = s.line ∧ t.cycle = s.cycle ∧ t.plan = s.plan ∧
      (s.ctrl.mode = .running → t.ctrl = { s.ctrl with wait := false }) ∧
      (s.ctrl.mode = .panelFlash → t.ctrl.mode = .allRed ∧ t.ctrl.timer = some 0) ∧
      (s.ctrl.mode = .loading ∨ s.ctrl.mode = .check ∨ s.ctrl.mode = .startFlash ∨ s.ctrl.mode = .allRed ∨
        s.ctrl.mode = .faultFlash → t.ctrl = s.ctrl))

/-- A panel fault reset (R122, R161, R163, R179): every sticky flag takes the value that its live flag has, and every
detector fault returns to NORMAL; in FAULT_FLASH without reason PLAN the latches, the reasons and the first fault are
cleared and the mode is CHECK with a new self-check; otherwise mode, reasons and latches stay. The sticky flags are
copied before the change of mode clears live flags (log 42). The line is asserted while its pin is low (R198). A flash
entry wait that is in force stays, unless the groups that follow this moment leave none moving (R176). A level held
through start-up, a falling edge and a press in DARK are no reset, a level that has not held for tPF changes its filter
alone, and a filter without its supply follows its pin alone (R171, R193; log 24). -/
def Obligations.PanelFaultResetByMode : Prop :=
  (∀ (s : State) (pin : Bool) (held : Nat),
    (s.supplyOk = false → exec (.panelFaultReset pin held) s =
      .next { s with panel := { s.panel with faultReset := { s.panel.faultReset with raw := !pin } } }) ∧
    (s.supplyOk = true → held < 3125 → exec (.panelFaultReset pin held) s = .next { s with panel := { s.panel with
      faultReset := { raw := !pin, time := held, level := s.panel.faultReset.level } } }) ∧
    (s.supplyOk = true → 3125 ≤ held →
      s.ctrl.mode = .dark ∨ pin = true ∨ s.panel.faultReset.level ≠ some false →
      exec (.panelFaultReset pin held) s = .next { s with panel := { s.panel with
        faultReset := { raw := !pin, time := 3125, level := some !pin } } })) ∧
  ∀ (s : State) (held : Nat), s.supplyOk = true → 3125 ≤ held → s.panel.faultReset.level = some false →
    s.ctrl.mode ≠ .dark →
    ∃ t u, exec (.panelFaultReset false held) s = .next t ∧
      u = { s with
        panel := { s.panel with faultReset := { raw := true, time := 3125, level := some true } }
        dets := u.dets, lamps := { s.lamps with channels := u.lamps.channels } } ∧
      (∀ c, u.lamps.channels.nth c = { s.lamps.channels.nth c with
        unSticky := (s.lamps.channels.nth c).unLive, loSticky := (s.lamps.channels.nth c).loLive }) ∧
      (∀ d, s.localDef d = none ∨ (s.dets.nth d).initial = false → u.dets.nth d = s.dets.nth d) ∧
      (∀ d f, s.localDef d = some f → (s.dets.nth d).initial = true → u.dets.nth d = { s.dets.nth d with
        fault := .normal
        presence := if (s.dets.nth d).level = true then some 0 else none
        silence := if f.tMSL = 0 then none else some 0 }) ∧
      t = State.react (if s.ctrl.mode = .faultFlash ∧ s.ctrl.reasons.plan = false
        then State.enterMode { u with
          ctrl := { s.ctrl with
            reasons := { conflict := false, redOut := false, selfCheck := false, plan := false }
            firstFault := none }
          lamps := { u.lamps with conflict := none, redOut := none } } .check
        else u) ∧
      (∀ c, (t.lamps.channels.nth c).unSticky = (s.lamps.channels.nth c).unLive ∧
        (t.lamps.channels.nth c).loSticky = (s.lamps.channels.nth c).loLive) ∧
      (∀ d f, s.localDef d = some f → (s.dets.nth d).initial = true → (t.dets.nth d).fault = .normal ∧
        (t.dets.nth d).count = (s.dets.nth d).count ∧ (t.dets.nth d).capture = (s.dets.nth d).capture ∧
        (t.dets.nth d).level = (s.dets.nth d).level ∧
        ((s.dets.nth d).level = true → (t.dets.nth d).presence = some 0) ∧
        (f.tMSL ≠ 0 → (t.dets.nth d).silence = some 0)) ∧
      t.remotes = s.remotes ∧ t.line = s.line ∧ t.cycle = s.cycle ∧ t.peers = s.peers ∧ t.plan = s.plan ∧
      t.planRead = s.planRead ∧ t.diag = s.diag ∧
      (s.ctrl.mode = .faultFlash → s.ctrl.reasons.plan = false →
        t.ctrl.mode = .check ∧ t.ctrl.firstFault = none ∧ t.lamps.conflict = none ∧ t.lamps.redOut = none ∧
        t.ctrl.reasons = { conflict := false, redOut := false, selfCheck := false, plan := false } ∧
        t.lamps.selfCheck = .running ∧ t.lamps.checkPassed = false) ∧
      (s.ctrl.mode ≠ .faultFlash ∨ s.ctrl.reasons.plan = true →
        t.ctrl.reasons = s.ctrl.reasons ∧ t.ctrl.firstFault = s.ctrl.firstFault ∧
        t.lamps.conflict = s.lamps.conflict ∧ t.lamps.redOut = s.lamps.redOut ∧
        (s.ctrl.wait = false ∨ s.ctrl.mode ≠ .running → t.ctrl = s.ctrl) ∧
        (s.ctrl.wait = true → s.ctrl.mode = .running → s.movingCount ≠ 0 →
          t.ctrl = if (State.settle 64 u.follow).movingCount = 0
            then { s.ctrl with mode := .panelFlash, timer := none, wait := false } else s.ctrl) ∧
        (t.ctrl = s.ctrl ∨ t.ctrl = { s.ctrl with mode := .panelFlash, timer := none, wait := false }))

/-- MANUAL changes the manual flag and runs arbitration (R102, R137), before the sequencer judges a stage end again
(log 39); an ADVANCE press acts on the sequencer
(R103), and a level held through start-up, a falling edge and a press in DARK do not (R193). In DARK MANUAL changes its
flag alone (R102, R171); a level that has not held for tPF changes its filter alone, and a filter without its supply
follows its pin alone (R193; log 24). R103: an ADVANCE press without MANUAL, in IDLE, with a service stage asserted or
during the flash entry wait does nothing; in MANUAL and DWELL it begins a change to the next stage of the list, unless
that is the stage in DWELL, and in a change that is not committed it replaces that one's target with the stage after
it, unless that is the target; a list of one entry gives no change. A line is asserted while its pin is low (R198). -/
def Obligations.ManualAndAdvance : Prop :=
  (∀ (s : State) (pin : Bool) (held : Nat), s.supplyOk = true → 3125 ≤ held →
    (s.ctrl.mode ≠ .dark → s.manualFlag = pin →
      exec (.manualChange pin held) s = .next (State.react (State.arbitrate
        { s with panel := { s.panel with manual := { raw := !pin, time := 3125, level := some !pin } } }))) ∧
    (s.manualFlag ≠ pin → exec (.manualChange pin held) s =
      .next { s with panel := { s.panel with manual := { raw := !pin, time := 3125, level := some !pin } } }) ∧
    (s.ctrl.mode ≠ .dark → s.panel.advance.level = some false →
      exec (.advancePress false held) s = .next (State.react (State.advance
        { s with panel := { s.panel with advance := { raw := true, time := 3125, level := some true } } }))) ∧
    (s.ctrl.mode = .dark → exec (.manualChange pin held) s =
      .next { s with panel := { s.panel with manual := { raw := !pin, time := 3125, level := some !pin } } }) ∧
    (s.ctrl.mode = .dark ∨ pin = true ∨ s.panel.advance.level ≠ some false →
      exec (.advancePress pin held) s =
        .next { s with panel := { s.panel with advance := { raw := !pin, time := 3125, level := some !pin } } })) ∧
  (∀ (s : State) (pin : Bool) (held : Nat),
    (s.supplyOk = true → held < 3125 →
      exec (.manualChange pin held) s = .next { s with panel := { s.panel with
        manual := { raw := !pin, time := held, level := s.panel.manual.level } } } ∧
      exec (.advancePress pin held) s = .next { s with panel := { s.panel with
        advance := { raw := !pin, time := held, level := s.panel.advance.level } } }) ∧
    (s.supplyOk = false →
      exec (.manualChange pin held) s = .next { s with panel := { s.panel with
        manual := { s.panel.manual with raw := !pin } } } ∧
      exec (.advancePress pin held) s = .next { s with panel := { s.panel with
        advance := { s.panel.advance with raw := !pin } } })) ∧
  (∀ s : State,
    (s.manualFlag = false ∨ s.seq.st = .idle ∨ s.seq.service ≠ none ∨ s.ctrl.wait = true → s.advance = s) ∧
    (∀ t, s.seq.st = .dwell t → nextStage s.sequence t = some t → s.advance = s) ∧
    (∀ c, s.seq.st = .change c → nextStage s.sequence c.toStage = some c.toStage → s.advance = s) ∧
    (∀ m, s.sequence = [m] → s.seq.st = .dwell m ∨ (∃ c, s.seq.st = .change c ∧ c.toStage = m) → s.advance = s) ∧
    (s.manualFlag = true → s.seq.service = none → s.ctrl.wait = false →
      (∀ t u, s.seq.st = .dwell t → nextStage s.sequence t = some u → u ≠ t →
        s.advance = s.beginChange t u) ∧
      (∀ c u, s.seq.st = .change c → c.committed = false → nextStage s.sequence c.toStage = some u →
        u ≠ c.toStage → s.advance = s.replaceChange c u) ∧
      (∀ c, s.seq.st = .change c → c.committed = true → s.advance = s))) ∧
  ∀ (l : List StageId) (t : StageId),
    (t ∉ l → nextStage l t = l.head?) ∧
    ∀ a b, l = a ++ t :: b → t ∉ a → nextStage l t = (b ++ l).head?

/-- R85, R174, R176 for every step: outside RUNNING the sequencer is IDLE without flags or wait, and the mode
timer runs in START_FLASH and ALL_RED alone. R59, R75 to R79 for every step: while the force input of the mode is DARK or
FLASHING, every group but an UNUSED one stands in the forced state with no request held, all sixteen of a station
without a plan; while it is NONE none of them does; and an UNUSED group of a loaded plan stays DARK in every mode. -/
def Obligations.ModesHoldSequencerAndTimer : Prop :=
  (∀ s t : State, s.sequencerSafe → step s = .next t → t.sequencerSafe) ∧
  (∀ s t : State, s.timerSafe → step s = .next t → t.timerSafe) ∧
  ∀ s t : State, s.loadSafe → s.forceSafe → step s = .next t → t.forceSafe

/-! ### Plan read -/

/-- On the two lines of the plan memory port (R183) a start is the data line falling while the clock line is high and a
stop its rising then; a data bit stands while the clock line is high, the most significant bit first; the ninth bit of a
byte written is left to the memory, and that of a byte read carries the device's acknowledge, low, in every byte but
the last. A transfer looks at the data line before each start condition, where a low line fails it, in the ninth bit of
each byte written, where a high line is no acknowledgement and fails it, and in the eight bits of each byte read, high
being 1, the most significant bit first. A transfer that succeeds sets the retry count to 0 and its bytes join the
buffer; the next transfer starts at the next block, or CHECKING begins (R183, R184). A failed header test, taken as
magic, format version, length, ends the read with its code in FAULT_FLASH with reason PLAN, the first fault where no
reason was held (R172, R184), as FlashRequestByMode has every entry to a mode. That the levels come as the command's operand, a level that is not given being that of
the line pulled up, is log 26, and that the block start counts on where CHECKING begins is the model's choice
(log 43). -/
def Obligations.TransferStoresItsBlock : Prop :=
  (PortItem.start.phases = [⟨true, true⟩, ⟨true, false⟩, ⟨false, false⟩] ∧
    PortItem.repeatedStart.phases = ⟨false, true⟩ :: PortItem.start.phases ∧
    PortItem.stop.phases = [⟨false, false⟩, ⟨true, false⟩, ⟨true, true⟩] ∧
    (∀ b : Byte, (PortItem.write b).phases =
      ((List.range 8).flatMap fun i =>
        [⟨false, b.getLsbD (7 - i)⟩, ⟨true, b.getLsbD (7 - i)⟩, ⟨false, b.getLsbD (7 - i)⟩]) ++
      [⟨false, true⟩, ⟨true, true⟩, ⟨false, true⟩]) ∧
    (∀ a : Bool, (PortItem.read a).phases =
      ((List.range 8).flatMap fun _ => [⟨false, true⟩, ⟨true, true⟩, ⟨false, true⟩]) ++
      [⟨false, !a⟩, ⟨true, !a⟩, ⟨false, !a⟩]) ∧
    (∀ start count : Nat, transferItems start count =
      [.start, .write 0xA8, .write (BitVec.ofNat 8 (start / 256)), .write (BitVec.ofNat 8 start), .repeatedStart,
       .write 0xA9] ++ List.replicate (count - 1) (.read true) ++ [.read false, .stop]) ∧
    ∀ s : State, s.portPhases = s.planRead.port.flatMap PortItem.phases) ∧
  (∀ (s : State) (levels : List Bool) (start count : Nat), 1 ≤ count → s.planRead.port = transferItems start count →
    s.transferRun levels =
      if levels.getD 0 true = false then .failed .dataLow
      else if levels.getD 1 true = true then .failed .noAckAddress
      else if levels.getD 2 true = true ∨ levels.getD 3 true = true then .failed .noAckBlockStart
      else if levels.getD 4 true = false then .failed .dataLow
      else if levels.getD 5 true = true then .failed .noAckAddress
      else .done ((List.range count).map fun i => portByte ((levels.drop (6 + 8 * i)).take 8))) ∧
  (∀ (levels : List Bool) (i : Nat), i < 8 → (portByte levels).getLsbD i = levels.getD (7 - i) true) ∧
  (∀ s : State, s.planRead.blockSize = if s.planRead.nextBlock = 0 then 64
    else min 64 (imageLength s.planRead.buffer - s.planRead.nextBlock)) ∧
  (∀ bytes : List Byte, headerCode bytes =
    if bytes.getD 0 0 ≠ 76 ∨ bytes.getD 1 0 ≠ 82 then some 2
    else if bytes.getD 4 0 ≠ 1 then some 3
    else if 10 ≤ imageLength bytes ∧ imageLength bytes ≤ 4096 then none else some 4) ∧
  ∀ (s : State) (levels : List Bool) (bytes : List Byte), s.ctrl.mode = .loading → s.planRead.readState = .reading →
    s.planRead.port ≠ [] → s.transferRun levels = .done bytes →
    (s.planRead.nextBlock ≠ 0 ∨ headerCode bytes = none →
      ∃ t, exec (.planTransfer levels) s = .next t ∧
        t = { s with planRead := t.planRead } ∧ t.planRead.retry = 0 ∧
        t.planRead.nextBlock = s.planRead.nextBlock + 64 ∧
        t.planRead.buffer =
          (s.planRead.buffer ++ bytes).take (imageLength (s.planRead.buffer ++ bytes)) ∧
        (imageLength (s.planRead.buffer ++ bytes) ≤ s.planRead.nextBlock + 64 →
          t.planRead.readState = .checking ∧ t.planRead.port = [] ∧ t.planRead.checkAge = some 0 ∧
          t.planRead.attempt = none) ∧
        (s.planRead.nextBlock + 64 < imageLength (s.planRead.buffer ++ bytes) →
          t.planRead.readState = .reading ∧ t.planRead.attempt = some 0 ∧ t.planRead.checkAge = s.planRead.checkAge ∧
          t.planRead.port = transferItems (s.planRead.nextBlock + 64) t.planRead.blockSize)) ∧
    (∀ code, s.planRead.nextBlock = 0 → headerCode bytes = some code →
      ∃ t, exec (.planTransfer levels) s = .next t ∧
        t = State.react (State.enterMode { s with
          planRead := { s.planRead with
            readState := .failed, buffer := [], port := [], attempt := none, checkAge := none, nextBlock := 64, retry := 0 }
          ctrl := { s.ctrl with
            planFault := code, reasons := { s.ctrl.reasons with plan := true }
            firstFault := if s.ctrl.reasons = Ctrl.reset.reasons then some .plan else s.ctrl.firstFault } }
          .faultFlash) ∧
        t.planRead.readState = .failed ∧
        t.planRead.buffer = [] ∧ t.planRead.port = [] ∧ t.planRead.retry = 0 ∧ t.ctrl.mode = .faultFlash ∧
        t.ctrl.planFault = code ∧ t.ctrl.reasons = { s.ctrl.reasons with plan := true } ∧
        (s.ctrl.reasons = Ctrl.reset.reasons → t.ctrl.firstFault = some .plan) ∧
        (s.ctrl.reasons ≠ Ctrl.reset.reasons → t.ctrl.firstFault = s.ctrl.firstFault) ∧
        t.plan = s.plan ∧ t.line = s.line)

/-- A transfer that fails on the levels of its data line (TransferStoresItsBlock) releases both lines and counts a retry,
which starts tRP after the start of the failed attempt; after the third retry the read ends with NO_MEMORY, in
FAULT_FLASH with reason PLAN, the first fault where no reason was held (R172, R183), as FlashRequestByMode has every
entry to a mode. -/
def Obligations.TransferRetriesAndNoMemory : Prop :=
  ∀ (s : State) (levels : List Bool), s.ctrl.mode = .loading → s.planRead.readState = .reading →
    (∀ cause, s.planRead.port ≠ [] → s.transferRun levels = .failed cause → s.planRead.retry < 3 →
      exec (.transferFailure levels) s = .next { s with planRead := { s.planRead with
        retry := s.planRead.retry + 1, port := [] } }) ∧
    (∀ cause, s.planRead.port ≠ [] → s.transferRun levels = .failed cause → 3 ≤ s.planRead.retry →
      ∃ t, exec (.transferFailure levels) s = .next t ∧
        t = State.react (State.enterMode { s with
          planRead := { s.planRead with
            readState := .failed, buffer := [], port := [], attempt := none, checkAge := none }
          ctrl := { s.ctrl with
            planFault := 1, reasons := { s.ctrl.reasons with plan := true }
            firstFault := if s.ctrl.reasons = Ctrl.reset.reasons then some .plan else s.ctrl.firstFault } }
          .faultFlash) ∧
        t.planRead.readState = .failed ∧
        t.planRead.buffer = [] ∧ t.planRead.port = [] ∧
        t.ctrl.planFault = 1 ∧ t.ctrl.mode = .faultFlash ∧ t.ctrl.reasons = { s.ctrl.reasons with plan := true } ∧
        (s.ctrl.reasons = Ctrl.reset.reasons → t.ctrl.firstFault = some .plan) ∧
        (s.ctrl.reasons ≠ Ctrl.reset.reasons → t.ctrl.firstFault = s.ctrl.firstFault) ∧
        t.plan = s.plan ∧ t.line = s.line) ∧
    (∀ n, s.planRead.port = [] → s.planRead.attempt = some n → 313 ≤ n →
      exec .transferRetry s = .next { s with planRead := { s.planRead with
        port := transferItems s.planRead.nextBlock s.planRead.blockSize, attempt := some 0 } })

/-- The checks of CHECKING end the load (R172, R190, R191): with a plan the station enters CHECK, its line
LISTEN, its own peer entry SELF and its self-check running; with a code it enters FAULT_FLASH with reason PLAN, the
first fault where no reason was held, and no block takes any item; both entries are as FlashRequestByMode has them. The checks go in order (R185, R190): a wrong CRC is code 5; the walk of the section chain
from offset 5 stops at its first fault, and takes at each section BAD_CHAIN, code 6, before DUPLICATE_SECTION, code 7,
and BAD_SECTION_SIZE, code 9, while it passes over an unknown section; a section that is missing is code 8; then come
the content checks with their codes. -/
def Obligations.PlanValidationEndsTheLoad : Prop :=
  (∀ bytes body : List Byte, imageLength bytes = (bytes.getD 2 0).toNat + 256 * (bytes.getD 3 0).toNat ∧
    (imageCrcOk bytes (imageLength bytes) = false → checkImage bytes = .error 5) ∧
    (imageCrcOk bytes (imageLength bytes) = true → body = (bytes.drop 5).take (imageLength bytes - 7) →
      (∀ code, walkChain (imageLength bytes) body [] = .error code → checkImage bytes = .error code) ∧
      ∀ sections, walkChain (imageLength bytes) body [] = .ok sections →
        (∀ code, imageOf sections = .error code → checkImage bytes = .error code) ∧
        ∀ m, imageOf sections = .ok m →
          (∀ code, m.contentCode = some code → checkImage bytes = .error code) ∧
          (m.contentCode = none → checkImage bytes = .ok m.plan))) ∧
  (∀ (fuel : Nat) (tag lo hi : Byte) (rest : List Byte) (sections : List (Nat × List Byte)) (n : Nat),
    n = lo.toNat + 256 * hi.toNat →
    (tag = 0 → walkChain (fuel + 1) (tag :: lo :: hi :: rest) sections =
      if n = 0 ∧ rest = [] then .ok sections else .error 6) ∧
    (tag ≠ 0 → rest.length < n → walkChain (fuel + 1) (tag :: lo :: hi :: rest) sections = .error 6) ∧
    (tag ≠ 0 → n ≤ rest.length → 10 < tag.toNat →
      walkChain (fuel + 1) (tag :: lo :: hi :: rest) sections = walkChain fuel (rest.drop n) sections) ∧
    (tag ≠ 0 → n ≤ rest.length → tag.toNat ≤ 10 →
      ((∃ e ∈ sections, e.1 = tag.toNat) →
        walkChain (fuel + 1) (tag :: lo :: hi :: rest) sections = .error 7) ∧
      ((∀ e ∈ sections, e.1 ≠ tag.toNat) → walkChain (fuel + 1) (tag :: lo :: hi :: rest) sections =
        if n = [0, 5, 274, 208, 288, 24, n, 360, 84, 16, 16].getD tag.toNat 0 ∧ (tag.toNat = 6 → 1 ≤ n ∧ n ≤ 12)
        then walkChain fuel (rest.drop n) (sections ++ [(tag.toNat, rest.take n)]) else .error 9))) ∧
  (∀ (fuel : Nat) (l : List Byte) (sections : List (Nat × List Byte)), l.length < 3 →
    walkChain fuel l sections = .error 6) ∧
  (∀ sections : List (Nat × List Byte),
    ((∃ tag, 1 ≤ tag ∧ tag ≤ 10 ∧ ∀ e ∈ sections, e.1 ≠ tag) → imageOf sections = .error 8) ∧
    ((∀ tag, 1 ≤ tag → tag ≤ 10 → ∃ e ∈ sections, e.1 = tag) → imageOf sections = .ok
      { station := bodyOf sections 1, corridor := bodyOf sections 2, groups := bodyOf sections 3
        conflicts := bodyOf sections 4, stages := bodyOf sections 5, sequence := bodyOf sections 6
        detectors := bodyOf sections 7, patterns := bodyOf sections 8, routes := bodyOf sections 9
        signs := bodyOf sections 10 }) ∧
    ∀ l r tag body, sections = l ++ (tag, body) :: r → (∀ e ∈ l, e.1 ≠ tag) → bodyOf sections tag = body) ∧
  ∀ s : State, s.ctrl.mode = .loading → s.planRead.readState = .checking →
    (∀ p, checkImage s.planRead.buffer = .ok p →
      ∃ t, exec .planValidation s = .next t ∧
        t = State.react (State.enterMode { s with
          plan := some p
          planRead := { s.planRead with
            readState := .loaded, buffer := [], port := [], attempt := none, checkAge := none }
          peers := s.peers.put p.station { s.peers.nth p.station with presence := .self }
          line := { s.line with st := .listen, listenCount := 0 }
          cycle := { s.cycle with startHold := 0 }
          dets := .tab fun d => { s.dets.nth d with filt := 0, level := false, initial := false } } .check) ∧
        t.plan = some p ∧ t.planRead.readState = .loaded ∧
        t.planRead.buffer = [] ∧ t.ctrl.mode = .check ∧ t.line.st = .listen ∧ t.line.listenCount = 0 ∧
        (t.peers.nth p.station).presence = .self ∧ (∀ k, k ≠ p.station → t.peers.nth k = s.peers.nth k) ∧
        t.cycle.startHold = 0 ∧ t.lamps.selfCheck = .running ∧ t.lamps.checkPassed = false ∧
        (∀ d, (t.dets.nth d).initial = false ∧ (t.dets.nth d).filt = 0)) ∧
    (∀ code, checkImage s.planRead.buffer = .error code →
      ∃ t, exec .planValidation s = .next t ∧
        t = State.react (State.enterMode { s with
          planRead := { s.planRead with
            readState := .failed, buffer := [], port := [], attempt := none, checkAge := none }
          ctrl := { s.ctrl with
            planFault := code, reasons := { s.ctrl.reasons with plan := true }
            firstFault := if s.ctrl.reasons = Ctrl.reset.reasons then some .plan else s.ctrl.firstFault } }
          .faultFlash) ∧
        t.plan = s.plan ∧ t.planRead.readState = .failed ∧
        t.planRead.buffer = [] ∧ t.ctrl.mode = .faultFlash ∧ t.ctrl.planFault = code ∧
        t.ctrl.reasons = { s.ctrl.reasons with plan := true } ∧
        (s.ctrl.reasons = Ctrl.reset.reasons → t.ctrl.firstFault = some .plan) ∧
        (s.ctrl.reasons ≠ Ctrl.reset.reasons → t.ctrl.firstFault = s.ctrl.firstFault) ∧
        t.line = s.line ∧ t.peers = s.peers ∧ t.cycle = s.cycle ∧ t.dets = s.dets)

/-- The contents of an image. The fields stand where the layout has them, two bytes the low one first and a group set
with G1 in bit 0 of its first byte (R188). The content checks are taken in code order from 10 on, and the first that
fails gives its code (R190): VALUE_RANGE and TIMER_RANGE over the items that are held, then the relations of codes 12
to 25. Two of their clauses are the model's choice (log 35): a clearance of a group toward itself is one for a pair that
does not conflict, code 14 in `clearanceTable`; and a check-out detector number outside 1 to 24 names no CHECKOUT
detector of the route, code 24 in `routeStages`. A plan that passes holds the items of the image, what is not held reading 0 or absent (R186, R187, R189, R191);
its conflict matrix is symmetric with no group in conflict with itself, and its cycle lengths are 400 to 2 400
positions (R63). -/
def Obligations.CheckedPlansAreSymmetric : Prop :=
  (∀ (l : List Byte) (i : Nat), byteAt l i = (l.getD i 0).toNat ∧
    wordAt l i = byteAt l i + 256 * byteAt l (i + 1) ∧
    ∀ g : GroupId, BitSet.has (setAt l i) g =
      if g.val < 8 then (l.getD i 0).getLsbD g.val else (l.getD (i + 1) 0).getLsbD (g.val - 8)) ∧
  (∀ (m : Image) (i : Fin 3) (n : RouteId) (k : StationId) (g h : GroupId) (t : StageId),
    m.stationNo = byteAt m.station 0 ∧ m.tSF = wordAt m.station 1 ∧ m.tAR = wordAt m.station 3 ∧
    m.cycle i = wordAt m.corridor (2 * i.val) ∧
    m.distRaw n k = wordAt m.corridor (6 + 32 * n.val + 2 * k.val) ∧ m.lead n = byteAt m.corridor (262 + n.val) ∧
    m.life .emergency = byteAt m.corridor 270 ∧ m.life .transit = byteAt m.corridor 271 ∧
    m.hold .emergency = byteAt m.corridor 272 ∧ m.hold .transit = byteAt m.corridor 273 ∧
    m.kindRaw g = byteAt m.groups (13 * g.val) ∧ m.aspectRaw g = byteAt m.groups (13 * g.val + 1) ∧
    m.tPRE g = wordAt m.groups (13 * g.val + 2) ∧ m.tMIN g = wordAt m.groups (13 * g.val + 4) ∧
    m.tMAX g = wordAt m.groups (13 * g.val + 6) ∧ m.tGAP g = wordAt m.groups (13 * g.val + 8) ∧
    m.tCLR g = wordAt m.groups (13 * g.val + 10) ∧
    m.recallFlag g = !(byteAt m.groups (13 * g.val + 12) == 0) ∧
    m.conflictRow g = setAt m.conflicts (2 * g.val) ∧ m.conflict g h = BitSet.has (m.conflictRow g) h ∧
    m.igRaw g h = byteAt m.conflicts (32 + 16 * g.val + h.val) ∧ m.stageSet t = setAt m.stages (2 * t.val) ∧
    m.ofs i = wordAt m.patterns (28 * i.val) ∧ m.pREL i = wordAt m.patterns (28 * i.val + 2) ∧
    m.pFO i t = wordAt m.patterns (28 * i.val + 4 + 2 * t.val) ∧
    m.routeStageRaw n = byteAt m.routes (2 * n.val) ∧ m.routeCheckoutRaw n = byteAt m.routes (2 * n.val + 1) ∧
    (m.routePasses n = true ↔ ∃ x : StationId, x.val = m.stationNo ∧ m.distRaw n x ≠ 65535) ∧
    (m.isUsed g = true ↔ m.kindRaw g = 0 ∨ m.kindRaw g = 1)) ∧
  (∀ (m : Image) (d : LocalId) (r : RemoteId) (i : Nat),
    m.detByte d i = byteAt m.detectors (11 * d.val + i) ∧
    m.detCalls d = setAt m.detectors (11 * d.val + 3) ∧ m.detExtends d = setAt m.detectors (11 * d.val + 5) ∧
    m.remoteSource r = byteAt m.detectors (264 + 6 * r.val) ∧
    m.remoteCalls r = setAt m.detectors (264 + 6 * r.val + 2) ∧
    m.remoteExtends r = setAt m.detectors (264 + 6 * r.val + 4)) ∧
  (∀ m : Image,
    ((∀ b ∈ m.sequence, 1 ≤ b.toNat ∧ b.toNat ≤ 12) →
      m.sequenceList.map (fun t => t.val + 1) = m.sequence.map BitVec.toNat) ∧
    (∀ main rest, m.sequenceList = main :: rest → m.heldStages = rest.filter fun t => t != main) ∧
    (∀ a b, m.igRaw a b ≠ 255 → m.igRaw a b ≤ m.largestIG) ∧
    (m.largestIG = 0 ∨ ∃ a b, m.igRaw a b ≠ 255 ∧ m.igRaw a b = m.largestIG) ∧
    (∀ g, m.isUsed g = true → m.tCLR g ≤ m.largestCLR) ∧
    (m.largestCLR = 0 ∨ ∃ g, m.isUsed g = true ∧ m.tCLR g = m.largestCLR)) ∧
  (∀ m : Image, m.contentCode =
    ([m.valueRange, m.timerRange, m.walkGroups, m.conflictMatrix, m.clearanceTable, m.stageContent, m.sequenceOk,
      m.allRedLong, m.releasePoint, m.forceOffOrder, m.cycleLong, m.detectorLists, m.claimRoutes, m.remoteOthers,
      m.routeStages, m.signSources].findIdx? (fun ok => !ok)).map (· + 10)) ∧
  (∀ m : Image,
    (m.valueRange = true ↔ m.stationNo ≤ 15 ∧
      (∀ i, (400 ≤ m.cycle i ∧ m.cycle i ≤ 2400) ∧ m.ofs i < m.cycle i ∧ (1 ≤ m.pREL i ∧ m.pREL i < m.cycle i) ∧
        ∀ t ∈ m.heldStages, 1 ≤ m.pFO i t ∧ m.pFO i t < m.cycle i) ∧
      (∀ g, m.kindRaw g ≤ 2 ∧ (m.kindRaw g ≠ 2 → m.aspectRaw g ≤ 2)) ∧
      (∀ b ∈ m.sequence, 1 ≤ b.toNat ∧ b.toNat ≤ 12) ∧
      (∀ d, m.detByte d 0 ≤ 5 ∧
        (m.detByte d 0 = 4 ∨ m.detByte d 0 = 5 → 1 ≤ m.detByte d 9 ∧ m.detByte d 9 ≤ 8) ∧
        (m.detByte d 0 = 4 → m.detByte d 10 ≤ 1)) ∧
      (∀ r, m.remoteSource r ≠ 255 → m.remoteSource r ≤ 15 ∧ 1 ≤ byteAt m.detectors (264 + 6 * r.val + 1) ∧
        byteAt m.detectors (264 + 6 * r.val + 1) ≤ 24) ∧
      (∀ n, m.routePasses n = true → m.routeStageRaw n ≤ 12) ∧
      ∀ j : SignId, byteAt m.signs (2 * j.val) ≤ 6 ∧
        (1 ≤ byteAt m.signs (2 * j.val) → byteAt m.signs (2 * j.val) ≤ 3 →
          1 ≤ byteAt m.signs (2 * j.val + 1) ∧ byteAt m.signs (2 * j.val + 1) ≤ 16) ∧
        (byteAt m.signs (2 * j.val) = 4 →
          1 ≤ byteAt m.signs (2 * j.val + 1) ∧ byteAt m.signs (2 * j.val + 1) ≤ 8)) ∧
    (m.timerRange = true ↔ (50 ≤ m.tSF ∧ m.tSF ≤ 600) ∧ (20 ≤ m.tAR ∧ m.tAR ≤ 100) ∧
      (∀ g,
        (m.kindRaw g = 0 → m.tPRE g ≤ 30 ∧ (40 ≤ m.tMIN g ∧ m.tMIN g ≤ 600) ∧ (100 ≤ m.tMAX g ∧ m.tMAX g ≤ 1200) ∧
          (10 ≤ m.tGAP g ∧ m.tGAP g ≤ 99) ∧ (30 ≤ m.tCLR g ∧ m.tCLR g ≤ 60) ∧ m.tMIN g ≤ m.tMAX g) ∧
        (m.kindRaw g = 1 → m.tPRE g ≤ 30 ∧ (40 ≤ m.tMIN g ∧ m.tMIN g ≤ 300) ∧ 40 ≤ m.tCLR g ∧ m.tCLR g ≤ 300)) ∧
      (∀ a b, m.igRaw a b ≠ 255 → m.igRaw a b ≤ 150) ∧
      (∀ d, 1 ≤ m.detByte d 0 → m.detByte d 0 ≤ 5 →
        m.detByte d 1 ≤ 25 ∧ (1 ≤ m.detByte d 7 ∧ m.detByte d 7 ≤ 60) ∧ m.detByte d 8 ≤ 24) ∧
      (∀ n k, m.distRaw n k ≠ 65535 → m.distRaw n k ≤ 255) ∧ (∀ n, m.lead n ≤ 60) ∧
      ∀ q, (10 ≤ m.life q ∧ m.life q ≤ 255) ∧ 5 ≤ m.hold q ∧ m.hold q ≤ 60) ∧
    (m.walkGroups = true ↔ ∀ g, m.kindRaw g = 1 → m.tPRE g = 0 ∧ m.aspectRaw g ≠ 0) ∧
    (m.conflictMatrix = true ↔ ∀ a b, m.conflict a b = true →
      m.conflict b a = true ∧ a ≠ b ∧ m.isUsed a = true ∧ m.isUsed b = true) ∧
    (m.clearanceTable = true ↔ ∀ a b, m.igRaw a b ≠ 255 ↔ m.conflict a b = true) ∧
    (m.stageContent = true ↔ ∀ t a, BitSet.has (m.stageSet t) a = true →
      m.isUsed a = true ∧ ∀ b, BitSet.has (m.stageSet t) b = true → m.conflict a b = false) ∧
    (m.sequenceOk = true ↔ m.sequenceList.Nodup ∧ ∀ t ∈ m.sequenceList, m.stageSet t ≠ 0) ∧
    (m.allRedLong = true ↔ m.largestIG ≤ m.tAR) ∧
    (m.releasePoint = true ↔ ∀ i, ∀ t ∈ m.heldStages, m.pREL i < m.pFO i t) ∧
    (m.forceOffOrder = true ↔ ∀ i, m.heldStages.Pairwise fun t u => m.pFO i t < m.pFO i u) ∧
    (m.cycleLong = true ↔ ∀ i t, m.heldStages.getLast? = some t →
      m.pFO i t + m.largestCLR + m.largestIG ≤ m.cycle i) ∧
    (m.detectorLists = true ↔
      (∀ d,
        (1 ≤ m.detByte d 0 → m.detByte d 0 ≤ 3 → ∀ g,
          BitSet.has (m.detCalls d) g = true ∨ BitSet.has (m.detExtends d) g = true → m.isUsed g = true) ∧
        (m.detByte d 0 = 4 ∨ m.detByte d 0 = 5 → m.detCalls d = 0 ∧ m.detExtends d = 0)) ∧
      ∀ r, m.remoteSource r ≠ 255 → ∀ g,
        BitSet.has (m.remoteCalls r) g = true ∨ BitSet.has (m.remoteExtends r) g = true → m.isUsed g = true) ∧
    (m.claimRoutes = true ↔ ∀ d, m.detByte d 0 = 4 →
      ∃ n : RouteId, n.val + 1 = m.detByte d 9 ∧ m.routePasses n = true) ∧
    (m.remoteOthers = true ↔ ∀ r, m.remoteSource r ≠ 255 → m.remoteSource r ≠ m.stationNo) ∧
    (m.routeStages = true ↔ ∀ n, m.routePasses n = true →
      (∃ t : StageId, t.val + 1 = m.routeStageRaw n ∧ m.stageSet t ≠ 0) ∧
      (m.routeCheckoutRaw n = 0 ∨ ∃ d : LocalId, d.val + 1 = m.routeCheckoutRaw n ∧ m.detByte d 0 = 5 ∧
        m.detByte d 9 = n.val + 1)) ∧
    (m.signSources = true ↔ ∀ (j : SignId) (g : GroupId), 1 ≤ byteAt m.signs (2 * j.val) →
      byteAt m.signs (2 * j.val) ≤ 3 → g.val + 1 = byteAt m.signs (2 * j.val + 1) → m.isUsed g = true)) ∧
  ∀ m : Image, m.contentCode = none →
    (m.plan.station.val = m.stationNo ∧ m.plan.fingerprint = crc16 m.corridor ∧ m.plan.tSF = m.tSF ∧
      m.plan.tAR = m.tAR ∧ m.plan.lifeEmergency = m.life .emergency ∧ m.plan.lifeTransit = m.life .transit ∧
      m.plan.holdEmergency = m.hold .emergency ∧ m.plan.holdTransit = m.hold .transit ∧
      m.plan.sequence = m.sequenceList ∧ (∀ t, m.plan.stages.nth t = m.stageSet t)) ∧
    (∀ n, m.plan.lead.nth n = m.lead n ∧
      (∀ k, (m.plan.dist.nth n).nth k = if m.distRaw n k = 65535 then none else some (m.distRaw n k)) ∧
      (m.routePasses n = false → m.plan.routes.nth n = { stage := none, checkout := none }) ∧
      (m.routePasses n = true → ∃ t, (m.plan.routes.nth n).stage = some t ∧ t.val + 1 = m.routeStageRaw n ∧
        (m.routeCheckoutRaw n = 0 → (m.plan.routes.nth n).checkout = none) ∧
        ∀ d : LocalId, d.val + 1 = m.routeCheckoutRaw n → (m.plan.routes.nth n).checkout = some d)) ∧
    (∀ i, m.plan.cycleLength.nth i = m.cycle i ∧ (m.plan.patterns.nth i).ofs = m.ofs i ∧
      (m.plan.patterns.nth i).pREL = m.pREL i ∧
      ∀ t, (m.plan.patterns.nth i).pFO.nth t = if t ∈ m.heldStages then m.pFO i t else 0) ∧
    (∀ g, m.plan.conflicts.nth g = m.conflictRow g ∧
      (∀ h, (m.plan.clearance.nth g).nth h = if m.igRaw g h = 255 then none else some (m.igRaw g h)) ∧
      ∀ a : FlashAspect, a = (if m.aspectRaw g = 0 then .amber else if m.aspectRaw g = 1 then .red else .dark) →
        (m.kindRaw g = 0 → m.plan.groups.nth g =
          { kind := .vehicle, aspect := a, tPRE := m.tPRE g, tMIN := m.tMIN g, tMAX := m.tMAX g, tGAP := m.tGAP g
            tCLR := m.tCLR g, recallFlag := m.recallFlag g }) ∧
        (m.kindRaw g = 1 → m.plan.groups.nth g =
          { kind := .walk, aspect := a, tPRE := m.tPRE g, tMIN := m.tMIN g, tMAX := 0, tGAP := 0, tCLR := m.tCLR g
            recallFlag := m.recallFlag g }) ∧
        (m.kindRaw g = 2 → m.plan.groups.nth g =
          { kind := .unused, aspect := .amber, tPRE := 0, tMIN := 0, tMAX := 0, tGAP := 0, tCLR := 0
            recallFlag := m.recallFlag g })) ∧
    (∀ d, (m.detByte d 0 = 0 → m.plan.local_.nth d = none) ∧
      (m.detByte d 0 ≠ 0 → ∃ f, m.plan.local_.nth d = some f ∧ f.tDF = m.detByte d 1 ∧
        f.locking = !(m.detByte d 2 == 0) ∧ f.calls = m.detCalls d ∧ f.extends_ = m.detExtends d ∧
        f.tMP = m.detByte d 7 ∧ f.tMSL = m.detByte d 8 ∧
        (m.detByte d 0 = 1 → f.mode = .presence) ∧ (m.detByte d 0 = 2 → f.mode = .pulse) ∧
        (m.detByte d 0 = 3 → f.mode = .button) ∧
        (m.detByte d 0 = 4 → ∃ n : RouteId, n.val + 1 = m.detByte d 9 ∧
          f.mode = .claim n (if m.detByte d 10 = 0 then .emergency else .transit)) ∧
        (m.detByte d 0 = 5 → ∃ n : RouteId, n.val + 1 = m.detByte d 9 ∧ f.mode = .checkout n))) ∧
    (∀ r, (m.remoteSource r = 255 → m.plan.remote.nth r = none) ∧
      (m.remoteSource r ≠ 255 → ∃ f, m.plan.remote.nth r = some f ∧ f.station.val = m.remoteSource r ∧
        f.input.val + 1 = byteAt m.detectors (264 + 6 * r.val + 1) ∧ f.calls = m.remoteCalls r ∧
        f.extends_ = m.remoteExtends r)) ∧
    (∀ (j : SignId) (source arg : Nat), source = byteAt m.signs (2 * j.val) →
      arg = byteAt m.signs (2 * j.val + 1) →
      (source = 0 → m.plan.signs.nth j = .none) ∧
      (source = 1 → ∃ g : GroupId, g.val + 1 = arg ∧ m.plan.signs.nth j = .groupGreen g) ∧
      (source = 2 → ∃ g : GroupId, g.val + 1 = arg ∧ m.plan.signs.nth j = .groupNotRed g) ∧
      (source = 3 → ∃ g : GroupId, g.val + 1 = arg ∧ m.plan.signs.nth j = .callWaiting g) ∧
      (source = 4 → ∃ n : RouteId, n.val + 1 = arg ∧ m.plan.signs.nth j = .claimServing n) ∧
      (source = 5 → m.plan.signs.nth j = .claimServingAny) ∧ (source = 6 → m.plan.signs.nth j = .flashing)) ∧
    (∀ a b, BitSet.has (m.plan.conflicts.nth a) b = true →
      BitSet.has (m.plan.conflicts.nth b) a = true ∧ a ≠ b) ∧
    (∀ i, 400 ≤ m.plan.cycleLength.nth i ∧ m.plan.cycleLength.nth i ≤ 2400)

/-! ### Diagnostic line -/

/-- The receiver samples each character of the receive line, low for a start bit and high at rest, at the middles of
its bits, timed from the falling edge of its start bit: one whose start bit reads high is dropped as noise, one whose
stop bit reads low is discarded, and the value is that of the eight data bits, the least significant first (R195,
R198). A character that ends while the port is idle is taken as a query, and its value picks the report: it is latched
and the port becomes busy; any value but the seven is answered with an error reply that carries it. While the port is
busy, and in DARK, a character does nothing (R171, R195). A reply is the start byte, the report code, the length, the
body and the sum (R196). The port is idle again once its reply has ended (R195), and when within its limits that is is
free (log 28). Nothing but the port changes. That the sampled levels come as the rows' operands, and that a row whose
levels spell no character of its own changes nothing, is the model's choice (log 31, 2). The transmit pin is high at
rest, and in a reply low in each start bit, at the level of each data bit, the least significant first, and high in
each stop bit (R195, R198). -/
def Obligations.QueriesAreAnswered : Prop :=
  (∀ (s : State) (q : BitVec 10 → Instr) (letter : Byte) (body : List Byte),
    ((q = (fun l => .stationQuery l) ∧ letter = 83 ∧ body = s.stationBody) ∨
     (q = (fun l => .groupsQuery l) ∧ letter = 71 ∧ body = s.groupsBody) ∨
     (q = (fun l => .detectorsQuery l) ∧ letter = 68 ∧ body = s.detectorsBody) ∨
     (q = (fun l => .peersQuery l) ∧ letter = 80 ∧ body = s.peersBody) ∨
     (q = (fun l => .claimsQuery l) ∧ letter = 67 ∧ body = s.claimsBody) ∨
     (q = (fun l => .faultsQuery l) ∧ letter = 70 ∧ body = s.faultsBody) ∨
     (q = (fun l => .countsQuery l) ∧ letter = 78 ∧ body = s.countsBody)) →
    ∀ levels : BitVec 10,
    (levels.getLsbD 0 = false → levels.getLsbD 9 = true → levels.extractLsb' 1 8 = letter →
      s.ctrl.mode ≠ .dark → s.diag = none →
      exec (q levels) s = .next { s with diag := some { chars := replyOf letter body, elapsed := 0 } }) ∧
    (levels.getLsbD 0 = true ∨ levels.getLsbD 9 = false ∨ levels.extractLsb' 1 8 ≠ letter ∨
        s.ctrl.mode = .dark ∨ s.diag ≠ none → exec (q levels) s = .next s)) ∧
  (∀ (s : State) (levels : BitVec 10) (char : Byte), char = levels.extractLsb' 1 8 →
    (levels.getLsbD 0 = false → levels.getLsbD 9 = true → char ∉ ([83, 71, 68, 80, 67, 70, 78] : List Byte) →
      s.ctrl.mode ≠ .dark → s.diag = none →
      exec (.errorReply levels) s = .next { s with diag := some { chars := replyOf 69 [char], elapsed := 0 } }) ∧
    (levels.getLsbD 0 = true ∨ levels.getLsbD 9 = false ∨ char ∈ ([83, 71, 68, 80, 67, 70, 78] : List Byte) ∨
        s.ctrl.mode = .dark ∨ s.diag ≠ none → exec (.errorReply levels) s = .next s)) ∧
  (∀ (s : State) (levels : BitVec 10), exec (.diagFramingError levels) s = .next s ∧
    exec (.diagCharacterIgnored levels) s = .next s) ∧
  (∀ (levels : BitVec 10) (i : Nat), i < 8 → (levels.extractLsb' 1 8).getLsbD i = levels.getLsbD (i + 1)) ∧
  (∀ char : Byte, receivePin char none = true ∧ receivePin char (some 0) = false ∧
    (∀ j, j < 8 → receivePin char (some (1 + j)) = char.getLsbD j) ∧ receivePin char (some 9) = true ∧
    (∀ n, 10 ≤ n → receivePin char (some n) = true) ∧
    ∀ n, n < 10 → (lineLevels char).getLsbD n = receivePin char (some n)) ∧
  (∀ (code : Byte) (body : List Byte), ∃ sum, replyOf code body =
    [126, code, BitVec.ofNat 8 body.length, BitVec.ofNat 8 (body.length / 256)] ++ body ++ [sum] ∧
    sum.toNat = (((replyOf code body).dropLast.map BitVec.toNat).sum) % 256) ∧
  (∀ (s : State) (r : Reply), s.diag = some r → 625000 * r.chars.length / 19296 ≤ r.elapsed →
    exec .diagReplyEnd s = .next { s with diag := none }) ∧
  (∀ s : State, (∀ r, s.diag = some r → r.elapsed < 625000 * r.chars.length / 19296) →
    exec .diagReplyEnd s = .next s) ∧
  (∀ s : State, s.diagPin none = true ∧ (s.diag = none → ∀ n, s.diagPin n = true)) ∧
  ∀ (s : State) (r : Reply) (i : Nat) (b : Byte), s.diag = some r → r.chars[i]? = some b →
    s.diagPin (some (10 * i)) = false ∧
    (∀ j, j < 8 → s.diagPin (some (10 * i + 1 + j)) = b.getLsbD j) ∧
    s.diagPin (some (10 * i + 9)) = true

/-- The bodies have the lengths and the contents of R197: the station report (R56, R107, R181), the groups report
(R81), the detectors report (R127), the peers report (R38), the claims report (R149), the faults report (R167) and the
counts report (R127, R149), each number in its characters, the low byte first (R196). That the groups report shows an
UNUSED group, and so every group of a station without a plan, as DARK with 0 to run is the model's choice (log 36).
Flags in one character stand with the first in the lowest bit (log 22), times are rounded as log 21 has it, and the miss
count 0 of an own claim's entry is the model's (log 41). -/
def Obligations.ReportLengths : Prop :=
  (∀ s : State, s.stationBody.length = 24 ∧ s.groupsBody.length = 48 ∧ s.detectorsBody.length = 160 ∧
    s.peersBody.length = 48 ∧
    s.claimsBody.length = 4 + 14 * s.claims.table.length + 7 * s.claims.own.length ∧
    s.faultsBody.length = 176 ∧ s.countsBody.length = 108) ∧
  (∀ n : Nat, numChars n = [BitVec.ofNat 8 n, BitVec.ofNat 8 (n / 256)] ∧ numChar n = BitVec.ofNat 8 n) ∧
  (∀ ticks : Nat, downTime ticks = (ticks + 6249) / 6250) ∧
  (∀ a b c d : Bool, flagsChar [a, b, c, d] = BitVec.ofNat 8 (a.toNat + 2 * b.toNat + 4 * c.toNat + 8 * d.toNat)) ∧
  (∀ s : State,
    s.stationBody =
      [match s.ctrl.mode with
        | .dark | .loading => 0
        | .check => 1
        | .startFlash => 2
        | .allRed => 3
        | .running => 4
        | .panelFlash => 5
        | .faultFlash => 6,
       flagsChar [s.ctrl.reasons.conflict, s.ctrl.reasons.redOut, s.ctrl.reasons.selfCheck, s.ctrl.reasons.plan],
       match s.ctrl.firstFault with
        | none => 255
        | some .conflict => 0
        | some .redOut => 1
        | some .selfCheck => 2
        | some .plan => 3,
       numChar s.ctrl.planFault, flagChar s.ctrl.wait,
       match s.seq.step with
        | .isolated => 0
        | .seeking => 1
        | .inStep => 2,
       numChar s.cycle.active.val, numChar s.cycle.requested.val, flagChar s.cycle.set] ++
      numChars s.cycle.position ++ numChars s.localPosition ++ numChars s.cycle.unsetWait ++
      [match s.cycle.divCandidate with
        | none => 255
        | some q => numChar q.val,
       numChar s.cycle.divCount,
       match s.seq.st.current with
        | none => 0
        | some t => numChar (t.val + 1),
       match s.seq.st.shownTarget with
        | none => 0
        | some t => numChar (t.val + 1),
       flagChar s.manualFlag,
       match s.line.st with
        | .off => 0
        | .listen => 1
        | .active => 2
        | .silentFault => 3
        | .stuck => 4,
       match s.line.sfKind with
        | .none => 0
        | .timed => 1
        | .permanent => 2] ++
      numChars s.line.sfHold) ∧
  (∀ s : State,
    s.groupsBody = (List.finRange 16).flatMap fun g =>
      [if (s.groupPlan g).kind = .unused then (5 : Byte) else
        match (s.groups.nth g).state with
        | .red => 0
        | .prepare => 1
        | .green => 2
        | .clearing => 3
        | .flashing => 4
        | .dark => 5] ++
      numChars (if (s.groupPlan g).kind = .unused then 0 else
        match (s.groups.nth g).state with
        | .prepare => downTime (6250 * (s.groupPlan g).tPRE - (s.groups.nth g).time)
        | .green =>
          if (s.groups.nth g).minDone then
            if (s.groups.nth g).maxRunning then downTime (s.groups.nth g).maxLeft else 0
          else downTime (6250 * (s.groupPlan g).tMIN - (s.groups.nth g).time)
        | .clearing => downTime (6250 * (s.groupPlan g).tCLR - (s.groups.nth g).time)
        | .red | .flashing | .dark => 0)) ∧
  (∀ s : State,
    s.detectorsBody =
      (List.finRange 24).flatMap (fun d =>
        [if s.localDef d = none then (0 : Byte) else
          match (s.dets.nth d).fault with
          | .normal => 1
          | .stuck => 2
          | .silent => 3,
         flagChar (s.occupied d)]) ++
      (List.finRange 16).flatMap (fun r =>
        match s.remotes.nth r with
        | .unused => [0, 0]
        | .normal o => [1, flagChar o]
        | .lost => [4, 0]) ++
      (List.finRange 16).flatMap fun g =>
        [flagChar (!(s.callers.nth g == 0)), (s.callers.nth g).extractLsb' 0 8, (s.callers.nth g).extractLsb' 8 8,
         (s.callers.nth g).extractLsb' 16 8, flagChar (s.hasCall g)]) ∧
  (∀ s : State, s.peersBody = (List.finRange 16).flatMap fun k =>
    [match (s.peers.nth k).presence with
      | .absent => 0
      | .heard => 1
      | .present => 2
      | .lost => 3
      | .foreign => 4
      | .unfit => 5
      | .self => 6,
     numChar (s.peers.nth k).miss, numChar (s.peers.nth k).badCount]) ∧
  (∀ s : State,
    s.claimsBody =
      [numChar s.claims.table.length] ++
      s.claims.table.flatMap (fun e =>
        [numChar e.origin.val, numChar e.serial.val, numChar (e.route.val + 1),
         match e.priority with
          | .emergency => 0
          | .transit => 1,
         numChar (e.stage.val + 1),
         match e.state with
          | .waiting => 0
          | .ready => 1
          | .serving => 2
          | .cleared => 3
          | .expired => 4] ++
        numChars (downTime e.remaining) ++ [flagChar e.arrived] ++ numChars (downTime e.life) ++
        (match e.hold with
          | none => [255, 255]
          | some n => numChars (downTime n)) ++ [numChar e.miss]) ++
      [numChar s.claims.own.length] ++
      s.claims.own.flatMap (fun o =>
        [numChar o.serial.val, numChar (o.route.val + 1),
         match o.priority with
          | .emergency => 0
          | .transit => 1] ++
        numChars (downTime o.life) ++ [o.clearedBy.extractLsb' 0 8, o.clearedBy.extractLsb' 8 8]) ++
      [numChar s.claims.nextSerial.val,
       match s.seq.service with
        | none => 0
        | some t => numChar (t.val + 1)]) ∧
  (∀ s : State,
    s.faultsBody =
      (match s.lamps.conflict with
        | none => ([0, 0, 0] : List Byte)
        | some (.conflict a b) => [1, numChar (a.val + 1), numChar (b.val + 1)]
        | some (.greenInFlash g) => [2, numChar (g.val + 1), 0]) ++
      (match s.lamps.redOut with
        | none => [0, 0]
        | some g => [1, numChar (g.val + 1)]) ++
      (List.finRange 56).flatMap (fun c =>
        [match (s.lamps.channels.nth c).command with
          | .on => 0
          | .off => 1
          | .flash => 2,
         flagChar (s.sensed c),
         flagsChar [(s.lamps.channels.nth c).unLive, (s.lamps.channels.nth c).loLive,
           (s.lamps.channels.nth c).unSticky, (s.lamps.channels.nth c).loSticky]]) ++
      [match s.lamps.selfCheck with
        | .notRun => 0
        | .running => 1
        | .passed => 2
        | .failed => 3,
       match s.lamps.firstFailing with
        | none => 0
        | some c => numChar (c.val + 1),
       flagChar s.lamps.checkPassed]) ∧
  ∀ s : State,
    s.countsBody =
      (List.finRange 24).flatMap (fun d =>
        [(s.dets.nth d).count.extractLsb' 0 8, (s.dets.nth d).count.extractLsb' 8 8,
         (s.dets.nth d).capture.extractLsb' 0 8, (s.dets.nth d).capture.extractLsb' 8 8]) ++
      [s.claims.overflow.extractLsb' 0 8, s.claims.overflow.extractLsb' 8 8,
       s.claims.refused.extractLsb' 0 8, s.claims.refused.extractLsb' 8 8,
       s.line.slips.extractLsb' 0 8, s.line.slips.extractLsb' 8 8,
       s.line.malformed.extractLsb' 0 8, s.line.malformed.extractLsb' 8 8,
       s.cycle.lateMarks.extractLsb' 0 8, s.cycle.lateMarks.extractLsb' 8 8,
       s.line.collisions.extractLsb' 0 8, s.line.collisions.extractLsb' 8 8]

/-! ### Boundaries and reset -/

/-- R21: ACT is low at start-up reset, changes its level at every frame boundary and at no other step. The three
commands that can take a boundary either take it, with ACT at its other level, or change the line interface
alone. -/
def Obligations.ActTogglesAtBoundariesAlone : Prop :=
  State.reset.act = false ∧
  (∀ (s t : State) (cause : ResetCause), exec (.startUpReset cause) s = .next t →
    t.act = false ∨ t = { s with resetPin := t.resetPin, supplyOk := t.supplyOk }) ∧
  (∀ (c : Instr) (s t : State), exec c s = .next t →
    (∀ cause, c ≠ .startUpReset cause) → (∀ len edge, c ≠ .dominantRunEnd len edge) →
    c ≠ .joinWindowClose → (∀ run, c ≠ .lineStuck run) → t.act = s.act) ∧
  (∀ (c : Instr) (s t : State), exec c s = .next t →
    ((∃ len edge, c = .dominantRunEnd len edge) ∨ c = .joinWindowClose ∨ ∃ run, c = .lineStuck run) →
    (t.act = (!s.act) ∧ t.line.pending = none ∧ (∀ k, t.line.outcomes.nth k = none) ∧
      t.line.snapshot = t.snapshotNow) ∨ t = { s with line := t.line }) ∧
  ∀ s : State, s.idle.act = s.act

/-- R11, R13, R18, R28 for every step: before the first entry to CHECK no plan is held, the line is OFF and every
peer ABSENT; the device drives the corridor line in ACTIVE alone; and a last good record stands in every peer
entry but the ABSENT and the SELF one. -/
def Obligations.LineAndPeerLawsHold : Prop :=
  (∀ s t : State, s.loadSafe → step s = .next t → t.loadSafe) ∧
  (∀ s t : State, s.loadSafe → s.driveSafe → step s = .next t → t.driveSafe) ∧
  ∀ s t : State, s.loadSafe → s.recordsSafe → step s = .next t → t.recordsSafe

/-- The state after reset keeps every law that the steps keep. -/
def Obligations.ResetKeepsEveryLaw : Prop :=
  State.reset.loadSafe ∧ State.reset.conflictSafe ∧ State.reset.cycleSafe ∧ State.reset.claimsSafe ∧
  State.reset.serviceSafe ∧ State.reset.driveSafe ∧ State.reset.sequencerSafe ∧ State.reset.timerSafe ∧
  State.reset.groupsRegular ∧ State.reset.recordsSafe ∧ State.reset.forceSafe
end

