-- ==== Sys2Proof/Laws/Follow.lean ====
section
/-! SUPPORT. Laws/Follow.lean: every operation that can follow an event leaves everything else as it was. -/

namespace Sys2Proof.Machine

theorem State.follows_refl (s : State) : s.follows s :=
  ⟨rfl, rfl, rfl, rfl, rfl, rfl, rfl, rfl, rfl, rfl, rfl, rfl, rfl, rfl, rfl, rfl, rfl, rfl, rfl, rfl, rfl, rfl, rfl, rfl, rfl⟩

theorem State.follows.trans {s t u : State} (h : s.follows t) (k : t.follows u) : s.follows u := by
  obtain ⟨h0, h1, h2, h3, h4, h5, h6, h7, h8, h9, h10, h11, h12, h13, h14, h15, h16, h17, h18, h19, h20, h21, h22, h23, h24⟩ := h
  obtain ⟨k0, k1, k2, k3, k4, k5, k6, k7, k8, k9, k10, k11, k12, k13, k14, k15, k16, k17, k18, k19, k20, k21, k22, k23, k24⟩ := k
  exact ⟨k0.trans h0, k1.trans h1, k2.trans h2, k3.trans h3, k4.trans h4, k5.trans h5,
    k6.trans h6, k7.trans h7, k8.trans h8, k9.trans h9, k10.trans h10, k11.trans h11,
    k12.trans h12, k13.trans h13, k14.trans h14, k15.trans h15, k16.trans h16, k17.trans h17,
    k18.trans h18, k19.trans h19, k20.trans h20, k21.trans h21, k22.trans h22, k23.trans h23,
    k24.trans h24⟩

theorem State.updGroup_follows (s : State) (g : GroupId) (f : Group → Group) : s.follows (s.updGroup g f) :=
  ⟨rfl, rfl, rfl, rfl, rfl, rfl, rfl, rfl, rfl, rfl, rfl, rfl, rfl, rfl, rfl, rfl, rfl, rfl, rfl, rfl, rfl, rfl, rfl, rfl, rfl⟩

theorem State.lampSync_follows (s : State) : s.follows s.lampSync :=
  ⟨rfl, rfl, rfl, rfl, rfl, rfl, rfl, rfl, rfl, rfl, rfl, rfl, rfl, rfl, rfl, rfl, rfl, rfl, rfl, rfl, rfl, rfl, rfl, rfl, rfl⟩

theorem State.enterGreen_follows (s : State) (g : GroupId) : s.follows (s.enterGreen g) :=
  ⟨rfl, rfl, rfl, rfl, rfl, rfl, rfl, rfl, rfl, rfl, rfl, rfl, rfl, rfl, rfl, rfl, rfl, rfl, rfl, rfl, rfl, rfl, rfl, rfl, rfl⟩

theorem State.leaveRed_follows (s : State) (g : GroupId) : s.follows (s.leaveRed g) := by
  unfold State.leaveRed
  split
  · exact (s.updGroup_follows g _).trans (State.lampSync_follows _)
  · exact (s.updGroup_follows g _).trans (State.enterGreen_follows _ _)

theorem State.grantStep_follows {s t : State} (h : s.grantStep = some t) : s.follows t := by
  unfold State.grantStep at h
  cases hg : firstFin (fun g => s.clearToOpen g) with
  | none => simp [hg] at h
  | some g => rw [hg] at h; cases h; exact s.leaveRed_follows g

theorem State.request_follows (s : State) (t : StageId) : s.follows (s.request t) :=
  ⟨rfl, rfl, rfl, rfl, rfl, rfl, rfl, rfl, rfl, rfl, rfl, rfl, rfl, rfl, rfl, rfl, rfl, rfl, rfl, rfl, rfl, rfl, rfl, rfl, rfl⟩

theorem State.forceAll_follows (s : State) (f : Force) : s.follows (s.forceAll f) :=
  ⟨rfl, rfl, rfl, rfl, rfl, rfl, rfl, rfl, rfl, rfl, rfl, rfl, rfl, rfl, rfl, rfl, rfl, rfl, rfl, rfl, rfl, rfl, rfl, rfl, rfl⟩

theorem State.follow_follows (s : State) : s.follows s.follow :=
  ⟨rfl, rfl, rfl, rfl, rfl, rfl, rfl, rfl, rfl, rfl, rfl, rfl, rfl, rfl, rfl, rfl, rfl, rfl, rfl, rfl, rfl, rfl, rfl, rfl, rfl⟩

theorem State.beginChange_follows (s : State) (a b : StageId) : s.follows (s.beginChange a b) :=
  ⟨rfl, rfl, rfl, rfl, rfl, rfl, rfl, rfl, rfl, rfl, rfl, rfl, rfl, rfl, rfl, rfl, rfl, rfl, rfl, rfl, rfl, rfl, rfl, rfl, rfl⟩

theorem State.replaceChange_follows (s : State) (c : Change) (t : StageId) : s.follows (s.replaceChange c t) :=
  ⟨rfl, rfl, rfl, rfl, rfl, rfl, rfl, rfl, rfl, rfl, rfl, rfl, rfl, rfl, rfl, rfl, rfl, rfl, rfl, rfl, rfl, rfl, rfl, rfl, rfl⟩

theorem State.startChange_follows (s : State) : s.follows s.startChange := by
  unfold State.startChange
  split
  · exact s.follows_refl
  · exact ⟨rfl, rfl, rfl, rfl, rfl, rfl, rfl, rfl, rfl, rfl, rfl, rfl, rfl, rfl, rfl, rfl, rfl, rfl, rfl, rfl, rfl, rfl, rfl, rfl, rfl⟩

theorem State.completeChange_follows (s : State) (c : Change) : s.follows (s.completeChange c) := by
  have h : ∀ r : Bool, s.follows { s with seq := { s.seq with st := .dwell c.toStage, release := r } } :=
    fun _ => ⟨rfl, rfl, rfl, rfl, rfl, rfl, rfl, rfl, rfl, rfl, rfl, rfl, rfl, rfl, rfl, rfl, rfl, rfl, rfl, rfl, rfl, rfl, rfl, rfl, rfl⟩
  unfold State.completeChange
  generalize (if s.mainStage = some c.toStage then false else s.seq.release) = r
  cases c.replacement with
  | none => exact h r
  | some t =>
    dsimp only
    split
    · exact h r
    · exact (h r).trans (State.beginChange_follows _ _ _)

theorem State.seqStep_follows {s t : State} (h : s.seqStep = some t) : s.follows t := by
  unfold State.seqStep at h
  split at h
  · cases h
  · rename_i c _
    split at h
    · cases h; exact ⟨rfl, rfl, rfl, rfl, rfl, rfl, rfl, rfl, rfl, rfl, rfl, rfl, rfl, rfl, rfl, rfl, rfl, rfl, rfl, rfl, rfl, rfl, rfl, rfl, rfl⟩
    · split at h
      · cases h; exact s.completeChange_follows c
      · cases h
  · split at h
    · rename_i d _ _
      cases hu : s.selectTarget d with
      | none => simp [hu] at h
      | some u => rw [hu] at h; cases h; exact s.beginChange_follows d u
    · cases h

theorem State.assertService_follows (s : State) (c : StageId) : s.follows (s.assertService c) := by
  unfold State.assertService
  split
  · exact s.follows_refl
  · split
    · exact s.follows_refl
    · exact s.beginChange_follows _ _
  · split
    · exact ⟨rfl, rfl, rfl, rfl, rfl, rfl, rfl, rfl, rfl, rfl, rfl, rfl, rfl, rfl, rfl, rfl, rfl, rfl, rfl, rfl, rfl, rfl, rfl, rfl, rfl⟩
    · split
      · exact s.follows_refl
      · exact s.replaceChange_follows _ _

theorem State.setService_follows (s : State) (new : Option StageId) : s.follows (s.setService new) := by
  unfold State.setService
  split
  · exact s.follows_refl
  · cases new with
    | none => exact ⟨rfl, rfl, rfl, rfl, rfl, rfl, rfl, rfl, rfl, rfl, rfl, rfl, rfl, rfl, rfl, rfl, rfl, rfl, rfl, rfl, rfl, rfl, rfl, rfl, rfl⟩
    | some c =>
      exact State.follows.trans (t := { s with seq := { s.seq with service := some c } })
        ⟨rfl, rfl, rfl, rfl, rfl, rfl, rfl, rfl, rfl, rfl, rfl, rfl, rfl, rfl, rfl, rfl, rfl, rfl, rfl, rfl, rfl, rfl, rfl, rfl, rfl⟩ (State.assertService_follows _ c)

theorem State.advance_follows (s : State) : s.follows s.advance := by
  unfold State.advance
  split
  · split
    · exact s.follows_refl
    · split
      · split
        · exact s.follows_refl
        · exact s.beginChange_follows _ _
      · exact s.follows_refl
    · split
      · exact s.follows_refl
      · split
        · split
          · exact s.follows_refl
          · exact s.replaceChange_follows _ _
        · exact s.follows_refl
  · exact s.follows_refl

theorem State.takeNotices_follows (s : State) (n : Notices) : s.follows (s.takeNotices n) :=
  ⟨rfl, rfl, rfl, rfl, rfl, rfl, rfl, rfl, rfl, rfl, rfl, rfl, rfl, rfl, rfl, rfl, rfl, rfl, rfl, rfl, rfl, rfl, rfl, rfl, rfl⟩

theorem State.arbitrate_follows (s : State) : s.follows s.arbitrate := by
  unfold State.arbitrate
  exact State.follows.trans (t := s.withClaimTable _) ⟨rfl, rfl, rfl, rfl, rfl, rfl, rfl, rfl, rfl, rfl, rfl, rfl, rfl, rfl, rfl, rfl, rfl, rfl, rfl, rfl, rfl, rfl, rfl, rfl, rfl⟩ (State.setService_follows _ _)

theorem State.enterMode_follows (s : State) (m : Mode) : s.follows (s.enterMode m) := by
  have h1 : s.follows { s with ctrl := { s.ctrl with mode := m, timer := m.timerStart, wait := false } } :=
    ⟨rfl, rfl, rfl, rfl, rfl, rfl, rfl, rfl, rfl, rfl, rfl, rfl, rfl, rfl, rfl, rfl, rfl, rfl, rfl, rfl, rfl, rfl, rfl, rfl, rfl⟩
  have hf : ∀ (t : State) (a b : Mode), t.follows (t.forceChange a b) := by
    intro t a b
    unfold State.forceChange
    split
    · exact t.follows_refl
    · exact t.forceAll_follows _
  have hq : ∀ (t : State) (a b : Mode), t.follows (t.seqModeChange a b) := by
    intro t a b
    unfold State.seqModeChange
    split
    · exact t.startChange_follows
    · split
      · exact ⟨rfl, rfl, rfl, rfl, rfl, rfl, rfl, rfl, rfl, rfl, rfl, rfl, rfl, rfl, rfl, rfl, rfl, rfl, rfl, rfl, rfl, rfl, rfl, rfl, rfl⟩
      · exact t.follows_refl
  have hc : ∀ t : State, t.follows (if m = .check then t.selfCheckStart else t) := by
    intro t
    split
    · exact ⟨rfl, rfl, rfl, rfl, rfl, rfl, rfl, rfl, rfl, rfl, rfl, rfl, rfl, rfl, rfl, rfl, rfl, rfl, rfl, rfl, rfl, rfl, rfl, rfl, rfl⟩
    · exact t.follows_refl
  exact ((((h1.trans (hf _ _ _)).trans (hq _ _ _)).trans (hc _)).trans
    (State.arbitrate_follows _)).trans (State.lampSync_follows _)

theorem State.flashSet_follows (s : State) : s.follows s.flashSet := by
  unfold State.flashSet
  split
  · exact s.enterMode_follows _
  · exact s.enterMode_follows _
  · split
    · exact s.enterMode_follows _
    · exact ⟨rfl, rfl, rfl, rfl, rfl, rfl, rfl, rfl, rfl, rfl, rfl, rfl, rfl, rfl, rfl, rfl, rfl, rfl, rfl, rfl, rfl, rfl, rfl, rfl, rfl⟩
  all_goals exact s.follows_refl

theorem State.enterJudged_follows (s : State) (m : Mode) : s.follows (s.enterJudged m) := by
  have h : s.enterJudged m =
      if (s.enterMode m).flashRequest then (s.enterMode m).flashSet else s.enterMode m := rfl
  rw [h]
  split
  · exact (s.enterMode_follows m).trans (State.flashSet_follows _)
  · exact s.enterMode_follows m

theorem State.draw_follows (s : State) (n : Nat) : s.follows (s.draw n).2 :=
  ⟨rfl, rfl, rfl, rfl, rfl, rfl, rfl, rfl, rfl, rfl, rfl, rfl, rfl, rfl, rfl, rfl, rfl, rfl, rfl, rfl, rfl, rfl, rfl, rfl, rfl⟩

theorem State.endWait_follows (s : State) : s.follows s.endWait := by
  unfold State.endWait
  split
  · exact (s.enterMode_follows _).trans (State.follow_follows _)
  · exact s.follows_refl

theorem State.raceWait_follows (s : State) : s.follows s.raceWait := by
  have h : s.raceWait =
      if s.waitOver then if (s.draw 2).1 = 0 then (s.draw 2).2.endWait else (s.draw 2).2 else s := rfl
  rw [h]
  split
  · split
    · exact (s.draw_follows 2).trans (State.endWait_follows _)
    · exact s.draw_follows 2
  · exact s.follows_refl

theorem State.settle_follows (n : Nat) (s : State) : s.follows (State.settle n s) := by
  induction n generalizing s with
  | zero => exact s.follows_refl
  | succ n ih =>
    unfold State.settle
    split
    · rename_i s1 h1
      exact ((State.grantStep_follows h1).trans s1.follow_follows).trans (ih _)
    · split
      · rename_i s1 h1
        exact ((State.seqStep_follows h1).trans s1.follow_follows).trans (ih _)
      · exact s.follows_refl

/-- What follows an event leaves the inputs, the plan, the line, the peers, the cycle unit, the detectors, the
latches and every counter as they were. -/
theorem State.react_follows (s : State) : s.follows s.react :=
  ((((s.follow_follows).trans (State.raceWait_follows _)).trans (State.settle_follows _ _)).trans
    (State.endWait_follows _)).trans (State.lampSync_follows _)

end Sys2Proof.Machine
end

