-- ==== Sys2Proof/Laws/Table.lean ====
section
/-! SUPPORT. Laws/Table.lean: reading and writing tables, sets of bits, and the searches over a fixed number of things. -/

namespace Sys2Proof

@[simp] theorem Table.nth_tab {α : Type} {n : Nat} (f : Fin n → α) (i : Fin n) :
    Table.nth (Table.tab f) i = f i := by
  show (List.ofFn f).toArray[i.val]'(by simp) = f i
  rw [List.getElem_toArray, List.getElem_ofFn]

@[simp] theorem Table.nth_put_self {α : Type} {n : Nat} (t : Table α n) (i : Fin n) (v : α) :
    (t.put i v).nth i = v := by
  show (t.set i.val v i.isLt)[i.val] = v
  exact Vector.getElem_set_self i.isLt

theorem Table.nth_put_ne {α : Type} {n : Nat} (t : Table α n) {i j : Fin n} (v : α) (h : i ≠ j) :
    (t.put i v).nth j = t.nth j := by
  show (t.set i.val v i.isLt)[j.val] = t[j.val]
  exact Vector.getElem_set_ne i.isLt j.isLt fun e => h (Fin.ext e)

theorem Table.nth_put {α : Type} {n : Nat} (t : Table α n) (i j : Fin n) (v : α) :
    (t.put i v).nth j = if i = j then v else t.nth j := by
  by_cases h : i = j
  · subst h; simp
  · simp [h, Table.nth_put_ne t v h]

@[simp] theorem Table.nth_upd_self {α : Type} {n : Nat} (t : Table α n) (i : Fin n) (f : α → α) :
    (t.upd i f).nth i = f (t.nth i) := by
  simp [Table.upd]

theorem Table.nth_upd_ne {α : Type} {n : Nat} (t : Table α n) {i j : Fin n} (f : α → α) (h : i ≠ j) :
    (t.upd i f).nth j = t.nth j := Table.nth_put_ne t _ h

theorem Table.nth_upd {α : Type} {n : Nat} (t : Table α n) (i j : Fin n) (f : α → α) :
    (t.upd i f).nth j = if i = j then f (t.nth i) else t.nth j := Table.nth_put t i j _

theorem Table.ext_nth {α : Type} {n : Nat} {t u : Table α n} (h : ∀ i, t.nth i = u.nth i) : t = u := by
  apply Vector.ext
  intro i hi
  exact h ⟨i, hi⟩

theorem getLsbD_ofBoolListLE (l : List Bool) (i : Nat) :
    (BitVec.ofBoolListLE l).getLsbD i = l.getD i false := by
  induction l generalizing i with
  | nil => simp [BitVec.ofBoolListLE]
  | cons b l ih =>
    cases i with
    | zero => simp [BitVec.ofBoolListLE]
    | succ i => simp [BitVec.ofBoolListLE, ih, BitVec.getLsbD_concat_succ]

@[simp] theorem BitSet.has_bitsOf {n : Nat} (p : Fin n → Bool) (i : Fin n) : BitSet.has (bitsOf p) i = p i := by
  show ((BitVec.ofBoolListLE (List.ofFn p)).cast _).getLsbD i.val = p i
  rw [BitVec.getLsbD_cast, getLsbD_ofBoolListLE]
  simp [List.getD, i.isLt]

theorem BitSet.has_or {n : Nat} (s t : BitVec n) (i : Fin n) :
    BitSet.has (s ||| t) i = (BitSet.has s i || BitSet.has t i) := by
  simp [BitSet.has]

@[simp] theorem BitSet.has_zero {n : Nat} (i : Fin n) : BitSet.has (0 : BitVec n) i = false := by
  simp [BitSet.has]

theorem anyFin_iff {n : Nat} {p : Fin n → Bool} : anyFin p = true ↔ ∃ i, p i = true := by
  simp [anyFin]

theorem allFin_iff {n : Nat} {p : Fin n → Bool} : allFin p = true ↔ ∀ i, p i = true := by
  simp [allFin]

theorem firstFin_some {n : Nat} {p : Fin n → Bool} {i : Fin n} (h : firstFin p = some i) : p i = true :=
  List.find?_some h

/-- The lowest index that satisfies `p`. -/
theorem firstFin_eq {n : Nat} {p : Fin n → Bool} {i : Fin n} (h : p i = true) (hl : ∀ j, j < i → p j = false) :
    firstFin p = some i := by
  cases hf : firstFin p with
  | none =>
    have := List.find?_eq_none.mp hf i (List.mem_finRange i)
    exact absurd h this
  | some j =>
    have hj : p j = true := List.find?_some hf
    obtain ⟨_, a, b, hab, hn⟩ := List.find?_eq_some_iff_append.mp hf
    congr 1
    refine Fin.le_antisymm ?_ ?_
    · refine Decidable.byContradiction fun hlt => ?_
      have hij : i < j := by omega
      have hs : List.Pairwise (· < ·) (List.finRange n) := List.pairwise_lt_finRange n
      rw [hab] at hs
      have hm : i ∈ a ++ j :: b := hab ▸ List.mem_finRange i
      rw [List.mem_append, List.mem_cons] at hm
      rw [List.pairwise_append, List.pairwise_cons] at hs
      rcases hm with hm | hm | hm
      · have := hn i hm
        rw [h] at this
        cases this
      · omega
      · have := hs.2.1.1 i hm
        omega
    · refine Decidable.byContradiction fun hlt => ?_
      have := hl j (by omega)
      rw [hj] at this
      cases this

theorem firstFin_none {n : Nat} {p : Fin n → Bool} (h : firstFin p = none) (i : Fin n) : p i = false := by
  have := List.find?_eq_none.mp h i (List.mem_finRange i)
  simpa using this

/-- The largest value of the members that count: no such member is above it, and it is the start or one of them. -/
theorem foldl_max {α : Type} (p : α → Bool) (f : α → Nat) (l : List α) (n : Nat) :
    n ≤ l.foldl (fun m a => if p a = true then max m (f a) else m) n ∧
    (∀ a ∈ l, p a = true → f a ≤ l.foldl (fun m a => if p a = true then max m (f a) else m) n) ∧
    (l.foldl (fun m a => if p a = true then max m (f a) else m) n = n ∨
      ∃ a ∈ l, p a = true ∧ f a = l.foldl (fun m a => if p a = true then max m (f a) else m) n) := by
  induction l generalizing n with
  | nil => exact ⟨Nat.le_refl n, nofun, .inl rfl⟩
  | cons a l ih =>
    rw [List.foldl_cons]
    by_cases h : p a = true
    · rw [if_pos h]
      obtain ⟨h1, h2, h3⟩ := ih (max n (f a))
      refine ⟨by omega, fun b hb hp => ?_, ?_⟩
      · rcases List.mem_cons.mp hb with rfl | hb
        · omega
        · exact h2 b hb hp
      · rcases h3 with h3 | ⟨b, hb, hp, he⟩
        · rw [h3]
          by_cases hc : f a ≤ n
          · exact .inl (by omega)
          · exact .inr ⟨a, List.mem_cons_self .., h, by omega⟩
        · exact .inr ⟨b, List.mem_cons_of_mem _ hb, hp, he⟩
    · rw [if_neg h]
      obtain ⟨h1, h2, h3⟩ := ih n
      refine ⟨h1, fun b hb hp => ?_, ?_⟩
      · rcases List.mem_cons.mp hb with rfl | hb
        · exact absurd hp h
        · exact h2 b hb hp
      · rcases h3 with h3 | ⟨b, hb, hp, he⟩
        · exact .inl h3
        · exact .inr ⟨b, List.mem_cons_of_mem _ hb, hp, he⟩

end Sys2Proof
end

