-- ==== Sys2Proof/Laws/Mode.lean ====
section
/-! SUPPORT. Laws/Mode.lean: which operations touch the station mode controller, and to which mode each leads. -/

namespace Sys2Proof.Machine

/-! ### Operations that leave the controller alone -/

/-- RESET_RELEASE either releases start-up reset, in DARK, or changes nothing (R171, R194). -/
theorem State.resetRelease_cases (s : State) :
    (s.ctrl.mode = .dark ∧ s.resetRelease = (s.released.enterMode .loading).react) ∨ s.resetRelease = s := by
  unfold State.resetRelease
  split
  · rename_i h
    unfold State.releaseDue at h
    exact Or.inl ⟨eq_of_beq (Bool.and_eq_true_iff.mp h).1, rfl⟩
  · exact Or.inr rfl

theorem State.leaveRed_ctrl (s : State) (g : GroupId) : (s.leaveRed g).ctrl = s.ctrl := by
  unfold State.leaveRed; split <;> rfl

theorem State.grantStep_ctrl {s t : State} (h : s.grantStep = some t) : t.ctrl = s.ctrl := by
  unfold State.grantStep at h
  cases hg : firstFin (fun g => s.clearToOpen g) with
  | none => simp [hg] at h
  | some g => rw [hg] at h; cases h; exact s.leaveRed_ctrl g

theorem State.startChange_ctrl (s : State) : s.startChange.ctrl = s.ctrl := by
  unfold State.startChange; split <;> rfl

theorem State.completeChange_ctrl (s : State) (c : Change) : (s.completeChange c).ctrl = s.ctrl := by
  unfold State.completeChange
  cases c.replacement with
  | none => rfl
  | some t => dsimp only; split <;> rfl

theorem State.seqStep_ctrl {s t : State} (h : s.seqStep = some t) : t.ctrl = s.ctrl := by
  unfold State.seqStep at h
  split at h
  · cases h
  · rename_i c _
    split at h
    · cases h; rfl
    · split at h
      · cases h; exact s.completeChange_ctrl c
      · cases h
  · split at h
    · rename_i d _ _
      cases hu : s.selectTarget d with
      | none => simp [hu] at h
      | some u => rw [hu] at h; cases h; rfl
    · cases h

theorem State.assertService_ctrl (s : State) (c : StageId) : (s.assertService c).ctrl = s.ctrl := by
  unfold State.assertService
  split
  · rfl
  · split <;> rfl
  · split
    · rfl
    · split <;> rfl

theorem State.setService_ctrl (s : State) (new : Option StageId) : (s.setService new).ctrl = s.ctrl := by
  unfold State.setService
  split
  · rfl
  · cases new with
    | none => rfl
    | some c => exact State.assertService_ctrl _ c

theorem State.arbitrate_ctrl (s : State) : s.arbitrate.ctrl = s.ctrl := by
  unfold State.arbitrate; exact State.setService_ctrl _ _

theorem State.advance_ctrl (s : State) : s.advance.ctrl = s.ctrl := by
  unfold State.advance
  split
  · split
    · rfl
    · split
      · split <;> rfl
      · rfl
    · split
      · rfl
      · split
        · split <;> rfl
        · rfl
  · rfl

theorem State.settle_ctrl (n : Nat) (s : State) : (State.settle n s).ctrl = s.ctrl := by
  induction n generalizing s with
  | zero => rfl
  | succ n ih =>
    unfold State.settle
    split
    · rename_i s1 h1
      exact (ih s1.follow).trans (show s1.ctrl = s.ctrl from State.grantStep_ctrl h1)
    · split
      · rename_i s1 h1
        exact (ih s1.follow).trans (show s1.ctrl = s.ctrl from State.seqStep_ctrl h1)
      · rfl

/-! ### Operations that change the mode -/

/-- An entry to a mode sets the mode and its timer, and ends the flash entry wait (R174, R176). -/
theorem State.enterMode_ctrl (s : State) (m : Mode) :
    (s.enterMode m).ctrl = { s.ctrl with mode := m, timer := m.timerStart, wait := false } := by
  have hf : ∀ (t : State) (a b : Mode), (t.forceChange a b).ctrl = t.ctrl := by
    intro t a b; unfold State.forceChange; split <;> rfl
  have hq : ∀ (t : State) (a b : Mode), (t.seqModeChange a b).ctrl = t.ctrl := by
    intro t a b
    unfold State.seqModeChange
    split
    · exact t.startChange_ctrl
    · split <;> rfl
  have hc : ∀ t : State, (if m = .check then t.selfCheckStart else t).ctrl = t.ctrl := by
    intro t; split <;> rfl
  exact (State.arbitrate_ctrl _).trans ((hc _).trans ((hq _ _ _).trans (hf _ _ _)))

@[simp] theorem State.enterMode_mode (s : State) (m : Mode) : (s.enterMode m).ctrl.mode = m := by
  rw [s.enterMode_ctrl m]

/-- Ending the flash entry wait leads from RUNNING to PANEL_FLASH, or changes nothing (R176). -/
theorem State.endWait_cases (s : State) :
    s.endWait = s ∨ (s.ctrl.mode = .running ∧ s.ctrl.wait = true ∧ s.endWait = (s.enterMode .panelFlash).follow) := by
  unfold State.endWait
  split
  · rename_i h
    simp only [State.waitOver, Bool.and_eq_true, beq_iff_eq] at h
    exact Or.inr ⟨h.1.2, h.1.1, rfl⟩
  · exact Or.inl rfl

/-- The controller's registers after the flash entry wait has ended. -/
def Ctrl.flashed (c : Ctrl) : Ctrl := { c with mode := .panelFlash, timer := none, wait := false }

theorem State.endWait_ctrl (s : State) :
    s.endWait.ctrl = s.ctrl ∨ (s.ctrl.mode = .running ∧ s.ctrl.wait = true ∧ s.endWait.ctrl = s.ctrl.flashed) := by
  rcases s.endWait_cases with h | ⟨h1, h2, h3⟩
  · exact Or.inl (by rw [h])
  · refine Or.inr ⟨h1, h2, ?_⟩
    rw [h3]
    exact s.enterMode_ctrl .panelFlash

theorem State.raceWait_ctrl (s : State) :
    s.raceWait.ctrl = s.ctrl ∨ (s.ctrl.mode = .running ∧ s.ctrl.wait = true ∧ s.raceWait.ctrl = s.ctrl.flashed) := by
  have h : s.raceWait =
      if s.waitOver then if (s.draw 2).1 = 0 then (s.draw 2).2.endWait else (s.draw 2).2 else s := rfl
  rw [h]
  split
  · split
    · exact State.endWait_ctrl (s.draw 2).2
    · exact Or.inl rfl
  · exact Or.inl rfl

/-- What follows an event changes the controller in one way alone: a flash entry wait that is in force may end
in PANEL_FLASH (R176). -/
theorem State.react_ctrl (s : State) :
    s.react.ctrl = s.ctrl ∨ (s.ctrl.mode = .running ∧ s.ctrl.wait = true ∧ s.react.ctrl = s.ctrl.flashed) := by
  have h1 : (State.settle settleBound s.follow.raceWait).ctrl = s.follow.raceWait.ctrl := State.settle_ctrl _ _
  have h2 := State.endWait_ctrl (State.settle settleBound s.follow.raceWait)
  have h3 := State.raceWait_ctrl s.follow
  have h4 : s.follow.ctrl = s.ctrl := rfl
  have h5 : s.react.ctrl = (State.settle settleBound s.follow.raceWait).endWait.ctrl := rfl
  rw [h5]
  rw [h1] at h2
  rw [h4] at h3
  rcases h3 with h3 | ⟨ha, hb, h3⟩
  · rw [h3] at h2
    exact h2
  · refine Or.inr ⟨ha, hb, ?_⟩
    rcases h2 with h2 | ⟨hm, _, _⟩
    · rw [h2, h3]
    · rw [h3] at hm
      cases hm

/-- Without a flash entry wait in force, what follows an event leaves the controller alone. -/
theorem State.react_ctrl_of_not_waiting {s : State} (h : s.ctrl.wait = false) : s.react.ctrl = s.ctrl := by
  rcases s.react_ctrl with h1 | ⟨_, h2, _⟩
  · exact h1
  · rw [h] at h2; cases h2

/-- The mode after what follows an event: the same, or PANEL_FLASH from RUNNING (R176). -/
theorem State.react_mode (s : State) :
    s.react.ctrl.mode = s.ctrl.mode ∨ (s.ctrl.mode = .running ∧ s.react.ctrl.mode = .panelFlash) := by
  rcases s.react_ctrl with h | ⟨h1, _, h2⟩
  · exact Or.inl (by rw [h])
  · exact Or.inr ⟨h1, by rw [h2]; rfl⟩

/-- Calls and timers follow without a change of state in any group (R117, R118). -/
theorem State.follow_state (s : State) (g : GroupId) : (s.follow.groups.nth g).state = (s.groups.nth g).state := by
  have h : s.follow.groups.nth g = s.joinCallers.judgeGreen g (s.groups.nth g) := Table.nth_tab _ g
  rw [h]
  unfold State.judgeGreen
  dsimp only
  repeat' split
  all_goals rfl

theorem State.follow_movingCount (s : State) : s.follow.movingCount = s.movingCount := by
  unfold State.movingCount
  simp only [State.follow_state]

/-- A flash entry wait with groups moving ends only where what follows brings them to rest (R176). -/
theorem State.react_waiting {s : State} (hw : s.ctrl.wait = true) (hm : s.ctrl.mode = .running)
    (hn : s.movingCount ≠ 0) : s.react.ctrl =
      if (State.settle settleBound s.follow).movingCount = 0 then s.ctrl.flashed else s.ctrl := by
  have h1 : s.follow.raceWait = s.follow := by
    unfold State.raceWait State.waitOver
    rw [State.follow_movingCount, if_neg]
    simp [hn]
  have h2 : s.react.ctrl = (State.settle settleBound s.follow.raceWait).endWait.ctrl := rfl
  have h3 : (State.settle settleBound s.follow).ctrl = s.ctrl := State.settle_ctrl _ _
  rw [h2, h1]
  generalize State.settle settleBound s.follow = u at h3 ⊢
  unfold State.endWait State.waitOver
  rw [h3, hw, hm]
  by_cases hu : u.movingCount = 0
  · rw [if_pos (by simp [hu]), if_pos hu]
    show (u.enterMode .panelFlash).ctrl = _
    rw [State.enterMode_ctrl, h3]
    rfl
  · rw [if_neg (by simp [hu]), if_neg hu, h3]

end Sys2Proof.Machine
end

