-- ==== Sys2Proof/Laws/Fields.lean ====
section
/-! SUPPORT. Laws/Fields.lean: what follows an event, an entry to a mode, arbitration and an ADVANCE press leave, field by field. -/

namespace Sys2Proof.Machine

/-! ### The parts of `follows` -/

theorem State.follows.pending_eq {s t : State} (h : s.follows t) : t.pending = s.pending := h.1
theorem State.follows.supplyOk_eq {s t : State} (h : s.follows t) : t.supplyOk = s.supplyOk := h.2.1
theorem State.follows.resetPin_eq {s t : State} (h : s.follows t) : t.resetPin = s.resetPin := h.2.2.1
theorem State.follows.panel_eq {s t : State} (h : s.follows t) : t.panel = s.panel := h.2.2.2.1
theorem State.follows.planRead_eq {s t : State} (h : s.follows t) : t.planRead = s.planRead := h.2.2.2.2.1
theorem State.follows.plan_eq {s t : State} (h : s.follows t) : t.plan = s.plan := h.2.2.2.2.2.1
theorem State.follows.line_eq {s t : State} (h : s.follows t) : t.line = s.line := h.2.2.2.2.2.2.1
theorem State.follows.peers_eq {s t : State} (h : s.follows t) : t.peers = s.peers := h.2.2.2.2.2.2.2.1
theorem State.follows.latched_eq {s t : State} (h : s.follows t) : t.latched = s.latched := h.2.2.2.2.2.2.2.2.1
theorem State.follows.act_eq {s t : State} (h : s.follows t) : t.act = s.act := h.2.2.2.2.2.2.2.2.2.1
theorem State.follows.cycle_eq {s t : State} (h : s.follows t) : t.cycle = s.cycle := h.2.2.2.2.2.2.2.2.2.2.1
theorem State.follows.dets_eq {s t : State} (h : s.follows t) : t.dets = s.dets := h.2.2.2.2.2.2.2.2.2.2.2.1
theorem State.follows.remotes_eq {s t : State} (h : s.follows t) : t.remotes = s.remotes := h.2.2.2.2.2.2.2.2.2.2.2.2.1
theorem State.follows.diag_eq {s t : State} (h : s.follows t) : t.diag = s.diag := h.2.2.2.2.2.2.2.2.2.2.2.2.2.1
theorem State.follows.ctrl_reasons_eq {s t : State} (h : s.follows t) : t.ctrl.reasons = s.ctrl.reasons := h.2.2.2.2.2.2.2.2.2.2.2.2.2.2.1
theorem State.follows.ctrl_firstFault_eq {s t : State} (h : s.follows t) : t.ctrl.firstFault = s.ctrl.firstFault := h.2.2.2.2.2.2.2.2.2.2.2.2.2.2.2.1
theorem State.follows.ctrl_planFault_eq {s t : State} (h : s.follows t) : t.ctrl.planFault = s.ctrl.planFault := h.2.2.2.2.2.2.2.2.2.2.2.2.2.2.2.2.1
theorem State.follows.lamps_conflict_eq {s t : State} (h : s.follows t) : t.lamps.conflict = s.lamps.conflict := h.2.2.2.2.2.2.2.2.2.2.2.2.2.2.2.2.2.1
theorem State.follows.lamps_redOut_eq {s t : State} (h : s.follows t) : t.lamps.redOut = s.lamps.redOut := h.2.2.2.2.2.2.2.2.2.2.2.2.2.2.2.2.2.2.1
theorem State.follows.lamps_phase_eq {s t : State} (h : s.follows t) : t.lamps.phase = s.lamps.phase := h.2.2.2.2.2.2.2.2.2.2.2.2.2.2.2.2.2.2.2.1
theorem State.follows.lamps_flashCount_eq {s t : State} (h : s.follows t) : t.lamps.flashCount = s.lamps.flashCount := h.2.2.2.2.2.2.2.2.2.2.2.2.2.2.2.2.2.2.2.2.1
theorem State.follows.claims_own_eq {s t : State} (h : s.follows t) : t.claims.own = s.claims.own := h.2.2.2.2.2.2.2.2.2.2.2.2.2.2.2.2.2.2.2.2.2.1
theorem State.follows.claims_nextSerial_eq {s t : State} (h : s.follows t) : t.claims.nextSerial = s.claims.nextSerial := h.2.2.2.2.2.2.2.2.2.2.2.2.2.2.2.2.2.2.2.2.2.2.1
theorem State.follows.claims_refused_eq {s t : State} (h : s.follows t) : t.claims.refused = s.claims.refused := h.2.2.2.2.2.2.2.2.2.2.2.2.2.2.2.2.2.2.2.2.2.2.2.1
theorem State.follows.claims_overflow_eq {s t : State} (h : s.follows t) : t.claims.overflow = s.claims.overflow := h.2.2.2.2.2.2.2.2.2.2.2.2.2.2.2.2.2.2.2.2.2.2.2.2

/-! ### react -/

@[simp] theorem State.react_pending (s : State) : s.react.pending = s.pending := s.react_follows.pending_eq
@[simp] theorem State.react_supplyOk (s : State) : s.react.supplyOk = s.supplyOk := s.react_follows.supplyOk_eq
@[simp] theorem State.react_resetPin (s : State) : s.react.resetPin = s.resetPin := s.react_follows.resetPin_eq
@[simp] theorem State.react_panel (s : State) : s.react.panel = s.panel := s.react_follows.panel_eq
@[simp] theorem State.react_planRead (s : State) : s.react.planRead = s.planRead := s.react_follows.planRead_eq
@[simp] theorem State.react_plan (s : State) : s.react.plan = s.plan := s.react_follows.plan_eq
@[simp] theorem State.react_line (s : State) : s.react.line = s.line := s.react_follows.line_eq
@[simp] theorem State.react_peers (s : State) : s.react.peers = s.peers := s.react_follows.peers_eq
@[simp] theorem State.react_latched (s : State) : s.react.latched = s.latched := s.react_follows.latched_eq
@[simp] theorem State.react_act (s : State) : s.react.act = s.act := s.react_follows.act_eq
@[simp] theorem State.react_cycle (s : State) : s.react.cycle = s.cycle := s.react_follows.cycle_eq
@[simp] theorem State.react_dets (s : State) : s.react.dets = s.dets := s.react_follows.dets_eq
@[simp] theorem State.react_remotes (s : State) : s.react.remotes = s.remotes := s.react_follows.remotes_eq
@[simp] theorem State.react_diag (s : State) : s.react.diag = s.diag := s.react_follows.diag_eq
@[simp] theorem State.react_ctrl_reasons (s : State) : s.react.ctrl.reasons = s.ctrl.reasons := s.react_follows.ctrl_reasons_eq
@[simp] theorem State.react_ctrl_firstFault (s : State) : s.react.ctrl.firstFault = s.ctrl.firstFault := s.react_follows.ctrl_firstFault_eq
@[simp] theorem State.react_ctrl_planFault (s : State) : s.react.ctrl.planFault = s.ctrl.planFault := s.react_follows.ctrl_planFault_eq
@[simp] theorem State.react_lamps_conflict (s : State) : s.react.lamps.conflict = s.lamps.conflict := s.react_follows.lamps_conflict_eq
@[simp] theorem State.react_lamps_redOut (s : State) : s.react.lamps.redOut = s.lamps.redOut := s.react_follows.lamps_redOut_eq
@[simp] theorem State.react_lamps_phase (s : State) : s.react.lamps.phase = s.lamps.phase := s.react_follows.lamps_phase_eq
@[simp] theorem State.react_lamps_flashCount (s : State) : s.react.lamps.flashCount = s.lamps.flashCount := s.react_follows.lamps_flashCount_eq
@[simp] theorem State.react_claims_own (s : State) : s.react.claims.own = s.claims.own := s.react_follows.claims_own_eq
@[simp] theorem State.react_claims_nextSerial (s : State) : s.react.claims.nextSerial = s.claims.nextSerial := s.react_follows.claims_nextSerial_eq
@[simp] theorem State.react_claims_refused (s : State) : s.react.claims.refused = s.claims.refused := s.react_follows.claims_refused_eq
@[simp] theorem State.react_claims_overflow (s : State) : s.react.claims.overflow = s.claims.overflow := s.react_follows.claims_overflow_eq

/-! ### enterMode -/

@[simp] theorem State.enterMode_pending (s : State) (m : Mode) : (s.enterMode m).pending = s.pending := (s.enterMode_follows m).pending_eq
@[simp] theorem State.enterMode_supplyOk (s : State) (m : Mode) : (s.enterMode m).supplyOk = s.supplyOk := (s.enterMode_follows m).supplyOk_eq
@[simp] theorem State.enterMode_resetPin (s : State) (m : Mode) : (s.enterMode m).resetPin = s.resetPin := (s.enterMode_follows m).resetPin_eq
@[simp] theorem State.enterMode_panel (s : State) (m : Mode) : (s.enterMode m).panel = s.panel := (s.enterMode_follows m).panel_eq
@[simp] theorem State.enterMode_planRead (s : State) (m : Mode) : (s.enterMode m).planRead = s.planRead := (s.enterMode_follows m).planRead_eq
@[simp] theorem State.enterMode_plan (s : State) (m : Mode) : (s.enterMode m).plan = s.plan := (s.enterMode_follows m).plan_eq
@[simp] theorem State.enterMode_line (s : State) (m : Mode) : (s.enterMode m).line = s.line := (s.enterMode_follows m).line_eq
@[simp] theorem State.enterMode_peers (s : State) (m : Mode) : (s.enterMode m).peers = s.peers := (s.enterMode_follows m).peers_eq
@[simp] theorem State.enterMode_latched (s : State) (m : Mode) : (s.enterMode m).latched = s.latched := (s.enterMode_follows m).latched_eq
@[simp] theorem State.enterMode_act (s : State) (m : Mode) : (s.enterMode m).act = s.act := (s.enterMode_follows m).act_eq
@[simp] theorem State.enterMode_cycle (s : State) (m : Mode) : (s.enterMode m).cycle = s.cycle := (s.enterMode_follows m).cycle_eq
@[simp] theorem State.enterMode_dets (s : State) (m : Mode) : (s.enterMode m).dets = s.dets := (s.enterMode_follows m).dets_eq
@[simp] theorem State.enterMode_remotes (s : State) (m : Mode) : (s.enterMode m).remotes = s.remotes := (s.enterMode_follows m).remotes_eq
@[simp] theorem State.enterMode_diag (s : State) (m : Mode) : (s.enterMode m).diag = s.diag := (s.enterMode_follows m).diag_eq
@[simp] theorem State.enterMode_ctrl_reasons (s : State) (m : Mode) : (s.enterMode m).ctrl.reasons = s.ctrl.reasons := (s.enterMode_follows m).ctrl_reasons_eq
@[simp] theorem State.enterMode_ctrl_firstFault (s : State) (m : Mode) : (s.enterMode m).ctrl.firstFault = s.ctrl.firstFault := (s.enterMode_follows m).ctrl_firstFault_eq
@[simp] theorem State.enterMode_ctrl_planFault (s : State) (m : Mode) : (s.enterMode m).ctrl.planFault = s.ctrl.planFault := (s.enterMode_follows m).ctrl_planFault_eq
@[simp] theorem State.enterMode_lamps_conflict (s : State) (m : Mode) : (s.enterMode m).lamps.conflict = s.lamps.conflict := (s.enterMode_follows m).lamps_conflict_eq
@[simp] theorem State.enterMode_lamps_redOut (s : State) (m : Mode) : (s.enterMode m).lamps.redOut = s.lamps.redOut := (s.enterMode_follows m).lamps_redOut_eq
@[simp] theorem State.enterMode_lamps_phase (s : State) (m : Mode) : (s.enterMode m).lamps.phase = s.lamps.phase := (s.enterMode_follows m).lamps_phase_eq
@[simp] theorem State.enterMode_lamps_flashCount (s : State) (m : Mode) : (s.enterMode m).lamps.flashCount = s.lamps.flashCount := (s.enterMode_follows m).lamps_flashCount_eq
@[simp] theorem State.enterMode_claims_own (s : State) (m : Mode) : (s.enterMode m).claims.own = s.claims.own := (s.enterMode_follows m).claims_own_eq
@[simp] theorem State.enterMode_claims_nextSerial (s : State) (m : Mode) : (s.enterMode m).claims.nextSerial = s.claims.nextSerial := (s.enterMode_follows m).claims_nextSerial_eq
@[simp] theorem State.enterMode_claims_refused (s : State) (m : Mode) : (s.enterMode m).claims.refused = s.claims.refused := (s.enterMode_follows m).claims_refused_eq
@[simp] theorem State.enterMode_claims_overflow (s : State) (m : Mode) : (s.enterMode m).claims.overflow = s.claims.overflow := (s.enterMode_follows m).claims_overflow_eq

/-! ### enterJudged -/

@[simp] theorem State.enterJudged_pending (s : State) (m : Mode) : (s.enterJudged m).pending = s.pending := (s.enterJudged_follows m).pending_eq
@[simp] theorem State.enterJudged_supplyOk (s : State) (m : Mode) : (s.enterJudged m).supplyOk = s.supplyOk := (s.enterJudged_follows m).supplyOk_eq
@[simp] theorem State.enterJudged_resetPin (s : State) (m : Mode) : (s.enterJudged m).resetPin = s.resetPin := (s.enterJudged_follows m).resetPin_eq
@[simp] theorem State.enterJudged_panel (s : State) (m : Mode) : (s.enterJudged m).panel = s.panel := (s.enterJudged_follows m).panel_eq
@[simp] theorem State.enterJudged_planRead (s : State) (m : Mode) : (s.enterJudged m).planRead = s.planRead := (s.enterJudged_follows m).planRead_eq
@[simp] theorem State.enterJudged_plan (s : State) (m : Mode) : (s.enterJudged m).plan = s.plan := (s.enterJudged_follows m).plan_eq
@[simp] theorem State.enterJudged_line (s : State) (m : Mode) : (s.enterJudged m).line = s.line := (s.enterJudged_follows m).line_eq
@[simp] theorem State.enterJudged_peers (s : State) (m : Mode) : (s.enterJudged m).peers = s.peers := (s.enterJudged_follows m).peers_eq
@[simp] theorem State.enterJudged_latched (s : State) (m : Mode) : (s.enterJudged m).latched = s.latched := (s.enterJudged_follows m).latched_eq
@[simp] theorem State.enterJudged_act (s : State) (m : Mode) : (s.enterJudged m).act = s.act := (s.enterJudged_follows m).act_eq
@[simp] theorem State.enterJudged_cycle (s : State) (m : Mode) : (s.enterJudged m).cycle = s.cycle := (s.enterJudged_follows m).cycle_eq
@[simp] theorem State.enterJudged_dets (s : State) (m : Mode) : (s.enterJudged m).dets = s.dets := (s.enterJudged_follows m).dets_eq
@[simp] theorem State.enterJudged_remotes (s : State) (m : Mode) : (s.enterJudged m).remotes = s.remotes := (s.enterJudged_follows m).remotes_eq
@[simp] theorem State.enterJudged_diag (s : State) (m : Mode) : (s.enterJudged m).diag = s.diag := (s.enterJudged_follows m).diag_eq
@[simp] theorem State.enterJudged_ctrl_reasons (s : State) (m : Mode) : (s.enterJudged m).ctrl.reasons = s.ctrl.reasons := (s.enterJudged_follows m).ctrl_reasons_eq
@[simp] theorem State.enterJudged_ctrl_firstFault (s : State) (m : Mode) : (s.enterJudged m).ctrl.firstFault = s.ctrl.firstFault := (s.enterJudged_follows m).ctrl_firstFault_eq
@[simp] theorem State.enterJudged_ctrl_planFault (s : State) (m : Mode) : (s.enterJudged m).ctrl.planFault = s.ctrl.planFault := (s.enterJudged_follows m).ctrl_planFault_eq
@[simp] theorem State.enterJudged_lamps_conflict (s : State) (m : Mode) : (s.enterJudged m).lamps.conflict = s.lamps.conflict := (s.enterJudged_follows m).lamps_conflict_eq
@[simp] theorem State.enterJudged_lamps_redOut (s : State) (m : Mode) : (s.enterJudged m).lamps.redOut = s.lamps.redOut := (s.enterJudged_follows m).lamps_redOut_eq
@[simp] theorem State.enterJudged_lamps_phase (s : State) (m : Mode) : (s.enterJudged m).lamps.phase = s.lamps.phase := (s.enterJudged_follows m).lamps_phase_eq
@[simp] theorem State.enterJudged_lamps_flashCount (s : State) (m : Mode) : (s.enterJudged m).lamps.flashCount = s.lamps.flashCount := (s.enterJudged_follows m).lamps_flashCount_eq
@[simp] theorem State.enterJudged_claims_own (s : State) (m : Mode) : (s.enterJudged m).claims.own = s.claims.own := (s.enterJudged_follows m).claims_own_eq
@[simp] theorem State.enterJudged_claims_nextSerial (s : State) (m : Mode) : (s.enterJudged m).claims.nextSerial = s.claims.nextSerial := (s.enterJudged_follows m).claims_nextSerial_eq
@[simp] theorem State.enterJudged_claims_refused (s : State) (m : Mode) : (s.enterJudged m).claims.refused = s.claims.refused := (s.enterJudged_follows m).claims_refused_eq
@[simp] theorem State.enterJudged_claims_overflow (s : State) (m : Mode) : (s.enterJudged m).claims.overflow = s.claims.overflow := (s.enterJudged_follows m).claims_overflow_eq

/-! ### flashSet -/

@[simp] theorem State.flashSet_pending (s : State) : s.flashSet.pending = s.pending := s.flashSet_follows.pending_eq
@[simp] theorem State.flashSet_supplyOk (s : State) : s.flashSet.supplyOk = s.supplyOk := s.flashSet_follows.supplyOk_eq
@[simp] theorem State.flashSet_resetPin (s : State) : s.flashSet.resetPin = s.resetPin := s.flashSet_follows.resetPin_eq
@[simp] theorem State.flashSet_panel (s : State) : s.flashSet.panel = s.panel := s.flashSet_follows.panel_eq
@[simp] theorem State.flashSet_planRead (s : State) : s.flashSet.planRead = s.planRead := s.flashSet_follows.planRead_eq
@[simp] theorem State.flashSet_plan (s : State) : s.flashSet.plan = s.plan := s.flashSet_follows.plan_eq
@[simp] theorem State.flashSet_line (s : State) : s.flashSet.line = s.line := s.flashSet_follows.line_eq
@[simp] theorem State.flashSet_peers (s : State) : s.flashSet.peers = s.peers := s.flashSet_follows.peers_eq
@[simp] theorem State.flashSet_latched (s : State) : s.flashSet.latched = s.latched := s.flashSet_follows.latched_eq
@[simp] theorem State.flashSet_act (s : State) : s.flashSet.act = s.act := s.flashSet_follows.act_eq
@[simp] theorem State.flashSet_cycle (s : State) : s.flashSet.cycle = s.cycle := s.flashSet_follows.cycle_eq
@[simp] theorem State.flashSet_dets (s : State) : s.flashSet.dets = s.dets := s.flashSet_follows.dets_eq
@[simp] theorem State.flashSet_remotes (s : State) : s.flashSet.remotes = s.remotes := s.flashSet_follows.remotes_eq
@[simp] theorem State.flashSet_diag (s : State) : s.flashSet.diag = s.diag := s.flashSet_follows.diag_eq
@[simp] theorem State.flashSet_ctrl_reasons (s : State) : s.flashSet.ctrl.reasons = s.ctrl.reasons := s.flashSet_follows.ctrl_reasons_eq
@[simp] theorem State.flashSet_ctrl_firstFault (s : State) : s.flashSet.ctrl.firstFault = s.ctrl.firstFault := s.flashSet_follows.ctrl_firstFault_eq
@[simp] theorem State.flashSet_ctrl_planFault (s : State) : s.flashSet.ctrl.planFault = s.ctrl.planFault := s.flashSet_follows.ctrl_planFault_eq
@[simp] theorem State.flashSet_lamps_conflict (s : State) : s.flashSet.lamps.conflict = s.lamps.conflict := s.flashSet_follows.lamps_conflict_eq
@[simp] theorem State.flashSet_lamps_redOut (s : State) : s.flashSet.lamps.redOut = s.lamps.redOut := s.flashSet_follows.lamps_redOut_eq
@[simp] theorem State.flashSet_lamps_phase (s : State) : s.flashSet.lamps.phase = s.lamps.phase := s.flashSet_follows.lamps_phase_eq
@[simp] theorem State.flashSet_lamps_flashCount (s : State) : s.flashSet.lamps.flashCount = s.lamps.flashCount := s.flashSet_follows.lamps_flashCount_eq
@[simp] theorem State.flashSet_claims_own (s : State) : s.flashSet.claims.own = s.claims.own := s.flashSet_follows.claims_own_eq
@[simp] theorem State.flashSet_claims_nextSerial (s : State) : s.flashSet.claims.nextSerial = s.claims.nextSerial := s.flashSet_follows.claims_nextSerial_eq
@[simp] theorem State.flashSet_claims_refused (s : State) : s.flashSet.claims.refused = s.claims.refused := s.flashSet_follows.claims_refused_eq
@[simp] theorem State.flashSet_claims_overflow (s : State) : s.flashSet.claims.overflow = s.claims.overflow := s.flashSet_follows.claims_overflow_eq

/-! ### arbitrate -/

@[simp] theorem State.arbitrate_pending (s : State) : s.arbitrate.pending = s.pending := s.arbitrate_follows.pending_eq
@[simp] theorem State.arbitrate_supplyOk (s : State) : s.arbitrate.supplyOk = s.supplyOk := s.arbitrate_follows.supplyOk_eq
@[simp] theorem State.arbitrate_resetPin (s : State) : s.arbitrate.resetPin = s.resetPin := s.arbitrate_follows.resetPin_eq
@[simp] theorem State.arbitrate_panel (s : State) : s.arbitrate.panel = s.panel := s.arbitrate_follows.panel_eq
@[simp] theorem State.arbitrate_planRead (s : State) : s.arbitrate.planRead = s.planRead := s.arbitrate_follows.planRead_eq
@[simp] theorem State.arbitrate_plan (s : State) : s.arbitrate.plan = s.plan := s.arbitrate_follows.plan_eq
@[simp] theorem State.arbitrate_line (s : State) : s.arbitrate.line = s.line := s.arbitrate_follows.line_eq
@[simp] theorem State.arbitrate_peers (s : State) : s.arbitrate.peers = s.peers := s.arbitrate_follows.peers_eq
@[simp] theorem State.arbitrate_latched (s : State) : s.arbitrate.latched = s.latched := s.arbitrate_follows.latched_eq
@[simp] theorem State.arbitrate_act (s : State) : s.arbitrate.act = s.act := s.arbitrate_follows.act_eq
@[simp] theorem State.arbitrate_cycle (s : State) : s.arbitrate.cycle = s.cycle := s.arbitrate_follows.cycle_eq
@[simp] theorem State.arbitrate_dets (s : State) : s.arbitrate.dets = s.dets := s.arbitrate_follows.dets_eq
@[simp] theorem State.arbitrate_remotes (s : State) : s.arbitrate.remotes = s.remotes := s.arbitrate_follows.remotes_eq
@[simp] theorem State.arbitrate_diag (s : State) : s.arbitrate.diag = s.diag := s.arbitrate_follows.diag_eq
@[simp] theorem State.arbitrate_ctrl_reasons (s : State) : s.arbitrate.ctrl.reasons = s.ctrl.reasons := s.arbitrate_follows.ctrl_reasons_eq
@[simp] theorem State.arbitrate_ctrl_firstFault (s : State) : s.arbitrate.ctrl.firstFault = s.ctrl.firstFault := s.arbitrate_follows.ctrl_firstFault_eq
@[simp] theorem State.arbitrate_ctrl_planFault (s : State) : s.arbitrate.ctrl.planFault = s.ctrl.planFault := s.arbitrate_follows.ctrl_planFault_eq
@[simp] theorem State.arbitrate_lamps_conflict (s : State) : s.arbitrate.lamps.conflict = s.lamps.conflict := s.arbitrate_follows.lamps_conflict_eq
@[simp] theorem State.arbitrate_lamps_redOut (s : State) : s.arbitrate.lamps.redOut = s.lamps.redOut := s.arbitrate_follows.lamps_redOut_eq
@[simp] theorem State.arbitrate_lamps_phase (s : State) : s.arbitrate.lamps.phase = s.lamps.phase := s.arbitrate_follows.lamps_phase_eq
@[simp] theorem State.arbitrate_lamps_flashCount (s : State) : s.arbitrate.lamps.flashCount = s.lamps.flashCount := s.arbitrate_follows.lamps_flashCount_eq
@[simp] theorem State.arbitrate_claims_own (s : State) : s.arbitrate.claims.own = s.claims.own := s.arbitrate_follows.claims_own_eq
@[simp] theorem State.arbitrate_claims_nextSerial (s : State) : s.arbitrate.claims.nextSerial = s.claims.nextSerial := s.arbitrate_follows.claims_nextSerial_eq
@[simp] theorem State.arbitrate_claims_refused (s : State) : s.arbitrate.claims.refused = s.claims.refused := s.arbitrate_follows.claims_refused_eq
@[simp] theorem State.arbitrate_claims_overflow (s : State) : s.arbitrate.claims.overflow = s.claims.overflow := s.arbitrate_follows.claims_overflow_eq

/-! ### advance -/

@[simp] theorem State.advance_pending (s : State) : s.advance.pending = s.pending := s.advance_follows.pending_eq
@[simp] theorem State.advance_supplyOk (s : State) : s.advance.supplyOk = s.supplyOk := s.advance_follows.supplyOk_eq
@[simp] theorem State.advance_resetPin (s : State) : s.advance.resetPin = s.resetPin := s.advance_follows.resetPin_eq
@[simp] theorem State.advance_panel (s : State) : s.advance.panel = s.panel := s.advance_follows.panel_eq
@[simp] theorem State.advance_planRead (s : State) : s.advance.planRead = s.planRead := s.advance_follows.planRead_eq
@[simp] theorem State.advance_plan (s : State) : s.advance.plan = s.plan := s.advance_follows.plan_eq
@[simp] theorem State.advance_line (s : State) : s.advance.line = s.line := s.advance_follows.line_eq
@[simp] theorem State.advance_peers (s : State) : s.advance.peers = s.peers := s.advance_follows.peers_eq
@[simp] theorem State.advance_latched (s : State) : s.advance.latched = s.latched := s.advance_follows.latched_eq
@[simp] theorem State.advance_act (s : State) : s.advance.act = s.act := s.advance_follows.act_eq
@[simp] theorem State.advance_cycle (s : State) : s.advance.cycle = s.cycle := s.advance_follows.cycle_eq
@[simp] theorem State.advance_dets (s : State) : s.advance.dets = s.dets := s.advance_follows.dets_eq
@[simp] theorem State.advance_remotes (s : State) : s.advance.remotes = s.remotes := s.advance_follows.remotes_eq
@[simp] theorem State.advance_diag (s : State) : s.advance.diag = s.diag := s.advance_follows.diag_eq
@[simp] theorem State.advance_ctrl_reasons (s : State) : s.advance.ctrl.reasons = s.ctrl.reasons := s.advance_follows.ctrl_reasons_eq
@[simp] theorem State.advance_ctrl_firstFault (s : State) : s.advance.ctrl.firstFault = s.ctrl.firstFault := s.advance_follows.ctrl_firstFault_eq
@[simp] theorem State.advance_ctrl_planFault (s : State) : s.advance.ctrl.planFault = s.ctrl.planFault := s.advance_follows.ctrl_planFault_eq
@[simp] theorem State.advance_lamps_conflict (s : State) : s.advance.lamps.conflict = s.lamps.conflict := s.advance_follows.lamps_conflict_eq
@[simp] theorem State.advance_lamps_redOut (s : State) : s.advance.lamps.redOut = s.lamps.redOut := s.advance_follows.lamps_redOut_eq
@[simp] theorem State.advance_lamps_phase (s : State) : s.advance.lamps.phase = s.lamps.phase := s.advance_follows.lamps_phase_eq
@[simp] theorem State.advance_lamps_flashCount (s : State) : s.advance.lamps.flashCount = s.lamps.flashCount := s.advance_follows.lamps_flashCount_eq
@[simp] theorem State.advance_claims_own (s : State) : s.advance.claims.own = s.claims.own := s.advance_follows.claims_own_eq
@[simp] theorem State.advance_claims_nextSerial (s : State) : s.advance.claims.nextSerial = s.claims.nextSerial := s.advance_follows.claims_nextSerial_eq
@[simp] theorem State.advance_claims_refused (s : State) : s.advance.claims.refused = s.claims.refused := s.advance_follows.claims_refused_eq
@[simp] theorem State.advance_claims_overflow (s : State) : s.advance.claims.overflow = s.claims.overflow := s.advance_follows.claims_overflow_eq

/-! ### endWait -/

@[simp] theorem State.endWait_pending (s : State) : s.endWait.pending = s.pending := s.endWait_follows.pending_eq
@[simp] theorem State.endWait_supplyOk (s : State) : s.endWait.supplyOk = s.supplyOk := s.endWait_follows.supplyOk_eq
@[simp] theorem State.endWait_resetPin (s : State) : s.endWait.resetPin = s.resetPin := s.endWait_follows.resetPin_eq
@[simp] theorem State.endWait_panel (s : State) : s.endWait.panel = s.panel := s.endWait_follows.panel_eq
@[simp] theorem State.endWait_planRead (s : State) : s.endWait.planRead = s.planRead := s.endWait_follows.planRead_eq
@[simp] theorem State.endWait_plan (s : State) : s.endWait.plan = s.plan := s.endWait_follows.plan_eq
@[simp] theorem State.endWait_line (s : State) : s.endWait.line = s.line := s.endWait_follows.line_eq
@[simp] theorem State.endWait_peers (s : State) : s.endWait.peers = s.peers := s.endWait_follows.peers_eq
@[simp] theorem State.endWait_latched (s : State) : s.endWait.latched = s.latched := s.endWait_follows.latched_eq
@[simp] theorem State.endWait_act (s : State) : s.endWait.act = s.act := s.endWait_follows.act_eq
@[simp] theorem State.endWait_cycle (s : State) : s.endWait.cycle = s.cycle := s.endWait_follows.cycle_eq
@[simp] theorem State.endWait_dets (s : State) : s.endWait.dets = s.dets := s.endWait_follows.dets_eq
@[simp] theorem State.endWait_remotes (s : State) : s.endWait.remotes = s.remotes := s.endWait_follows.remotes_eq
@[simp] theorem State.endWait_diag (s : State) : s.endWait.diag = s.diag := s.endWait_follows.diag_eq
@[simp] theorem State.endWait_ctrl_reasons (s : State) : s.endWait.ctrl.reasons = s.ctrl.reasons := s.endWait_follows.ctrl_reasons_eq
@[simp] theorem State.endWait_ctrl_firstFault (s : State) : s.endWait.ctrl.firstFault = s.ctrl.firstFault := s.endWait_follows.ctrl_firstFault_eq
@[simp] theorem State.endWait_ctrl_planFault (s : State) : s.endWait.ctrl.planFault = s.ctrl.planFault := s.endWait_follows.ctrl_planFault_eq
@[simp] theorem State.endWait_lamps_conflict (s : State) : s.endWait.lamps.conflict = s.lamps.conflict := s.endWait_follows.lamps_conflict_eq
@[simp] theorem State.endWait_lamps_redOut (s : State) : s.endWait.lamps.redOut = s.lamps.redOut := s.endWait_follows.lamps_redOut_eq
@[simp] theorem State.endWait_lamps_phase (s : State) : s.endWait.lamps.phase = s.lamps.phase := s.endWait_follows.lamps_phase_eq
@[simp] theorem State.endWait_lamps_flashCount (s : State) : s.endWait.lamps.flashCount = s.lamps.flashCount := s.endWait_follows.lamps_flashCount_eq
@[simp] theorem State.endWait_claims_own (s : State) : s.endWait.claims.own = s.claims.own := s.endWait_follows.claims_own_eq
@[simp] theorem State.endWait_claims_nextSerial (s : State) : s.endWait.claims.nextSerial = s.claims.nextSerial := s.endWait_follows.claims_nextSerial_eq
@[simp] theorem State.endWait_claims_refused (s : State) : s.endWait.claims.refused = s.claims.refused := s.endWait_follows.claims_refused_eq
@[simp] theorem State.endWait_claims_overflow (s : State) : s.endWait.claims.overflow = s.claims.overflow := s.endWait_follows.claims_overflow_eq

/-! ### startChange -/

@[simp] theorem State.startChange_pending (s : State) : s.startChange.pending = s.pending := s.startChange_follows.pending_eq
@[simp] theorem State.startChange_supplyOk (s : State) : s.startChange.supplyOk = s.supplyOk := s.startChange_follows.supplyOk_eq
@[simp] theorem State.startChange_resetPin (s : State) : s.startChange.resetPin = s.resetPin := s.startChange_follows.resetPin_eq
@[simp] theorem State.startChange_panel (s : State) : s.startChange.panel = s.panel := s.startChange_follows.panel_eq
@[simp] theorem State.startChange_planRead (s : State) : s.startChange.planRead = s.planRead := s.startChange_follows.planRead_eq
@[simp] theorem State.startChange_plan (s : State) : s.startChange.plan = s.plan := s.startChange_follows.plan_eq
@[simp] theorem State.startChange_line (s : State) : s.startChange.line = s.line := s.startChange_follows.line_eq
@[simp] theorem State.startChange_peers (s : State) : s.startChange.peers = s.peers := s.startChange_follows.peers_eq
@[simp] theorem State.startChange_latched (s : State) : s.startChange.latched = s.latched := s.startChange_follows.latched_eq
@[simp] theorem State.startChange_act (s : State) : s.startChange.act = s.act := s.startChange_follows.act_eq
@[simp] theorem State.startChange_cycle (s : State) : s.startChange.cycle = s.cycle := s.startChange_follows.cycle_eq
@[simp] theorem State.startChange_dets (s : State) : s.startChange.dets = s.dets := s.startChange_follows.dets_eq
@[simp] theorem State.startChange_remotes (s : State) : s.startChange.remotes = s.remotes := s.startChange_follows.remotes_eq
@[simp] theorem State.startChange_diag (s : State) : s.startChange.diag = s.diag := s.startChange_follows.diag_eq
@[simp] theorem State.startChange_ctrl_reasons (s : State) : s.startChange.ctrl.reasons = s.ctrl.reasons := s.startChange_follows.ctrl_reasons_eq
@[simp] theorem State.startChange_ctrl_firstFault (s : State) : s.startChange.ctrl.firstFault = s.ctrl.firstFault := s.startChange_follows.ctrl_firstFault_eq
@[simp] theorem State.startChange_ctrl_planFault (s : State) : s.startChange.ctrl.planFault = s.ctrl.planFault := s.startChange_follows.ctrl_planFault_eq
@[simp] theorem State.startChange_lamps_conflict (s : State) : s.startChange.lamps.conflict = s.lamps.conflict := s.startChange_follows.lamps_conflict_eq
@[simp] theorem State.startChange_lamps_redOut (s : State) : s.startChange.lamps.redOut = s.lamps.redOut := s.startChange_follows.lamps_redOut_eq
@[simp] theorem State.startChange_lamps_phase (s : State) : s.startChange.lamps.phase = s.lamps.phase := s.startChange_follows.lamps_phase_eq
@[simp] theorem State.startChange_lamps_flashCount (s : State) : s.startChange.lamps.flashCount = s.lamps.flashCount := s.startChange_follows.lamps_flashCount_eq
@[simp] theorem State.startChange_claims_own (s : State) : s.startChange.claims.own = s.claims.own := s.startChange_follows.claims_own_eq
@[simp] theorem State.startChange_claims_nextSerial (s : State) : s.startChange.claims.nextSerial = s.claims.nextSerial := s.startChange_follows.claims_nextSerial_eq
@[simp] theorem State.startChange_claims_refused (s : State) : s.startChange.claims.refused = s.claims.refused := s.startChange_follows.claims_refused_eq
@[simp] theorem State.startChange_claims_overflow (s : State) : s.startChange.claims.overflow = s.claims.overflow := s.startChange_follows.claims_overflow_eq

/-! ### leaveRed -/

@[simp] theorem State.leaveRed_pending (s : State) (g : GroupId) : (s.leaveRed g).pending = s.pending := (s.leaveRed_follows g).pending_eq
@[simp] theorem State.leaveRed_supplyOk (s : State) (g : GroupId) : (s.leaveRed g).supplyOk = s.supplyOk := (s.leaveRed_follows g).supplyOk_eq
@[simp] theorem State.leaveRed_resetPin (s : State) (g : GroupId) : (s.leaveRed g).resetPin = s.resetPin := (s.leaveRed_follows g).resetPin_eq
@[simp] theorem State.leaveRed_panel (s : State) (g : GroupId) : (s.leaveRed g).panel = s.panel := (s.leaveRed_follows g).panel_eq
@[simp] theorem State.leaveRed_planRead (s : State) (g : GroupId) : (s.leaveRed g).planRead = s.planRead := (s.leaveRed_follows g).planRead_eq
@[simp] theorem State.leaveRed_plan (s : State) (g : GroupId) : (s.leaveRed g).plan = s.plan := (s.leaveRed_follows g).plan_eq
@[simp] theorem State.leaveRed_line (s : State) (g : GroupId) : (s.leaveRed g).line = s.line := (s.leaveRed_follows g).line_eq
@[simp] theorem State.leaveRed_peers (s : State) (g : GroupId) : (s.leaveRed g).peers = s.peers := (s.leaveRed_follows g).peers_eq
@[simp] theorem State.leaveRed_latched (s : State) (g : GroupId) : (s.leaveRed g).latched = s.latched := (s.leaveRed_follows g).latched_eq
@[simp] theorem State.leaveRed_act (s : State) (g : GroupId) : (s.leaveRed g).act = s.act := (s.leaveRed_follows g).act_eq
@[simp] theorem State.leaveRed_cycle (s : State) (g : GroupId) : (s.leaveRed g).cycle = s.cycle := (s.leaveRed_follows g).cycle_eq
@[simp] theorem State.leaveRed_dets (s : State) (g : GroupId) : (s.leaveRed g).dets = s.dets := (s.leaveRed_follows g).dets_eq
@[simp] theorem State.leaveRed_remotes (s : State) (g : GroupId) : (s.leaveRed g).remotes = s.remotes := (s.leaveRed_follows g).remotes_eq
@[simp] theorem State.leaveRed_diag (s : State) (g : GroupId) : (s.leaveRed g).diag = s.diag := (s.leaveRed_follows g).diag_eq
@[simp] theorem State.leaveRed_ctrl_reasons (s : State) (g : GroupId) : (s.leaveRed g).ctrl.reasons = s.ctrl.reasons := (s.leaveRed_follows g).ctrl_reasons_eq
@[simp] theorem State.leaveRed_ctrl_firstFault (s : State) (g : GroupId) : (s.leaveRed g).ctrl.firstFault = s.ctrl.firstFault := (s.leaveRed_follows g).ctrl_firstFault_eq
@[simp] theorem State.leaveRed_ctrl_planFault (s : State) (g : GroupId) : (s.leaveRed g).ctrl.planFault = s.ctrl.planFault := (s.leaveRed_follows g).ctrl_planFault_eq
@[simp] theorem State.leaveRed_lamps_conflict (s : State) (g : GroupId) : (s.leaveRed g).lamps.conflict = s.lamps.conflict := (s.leaveRed_follows g).lamps_conflict_eq
@[simp] theorem State.leaveRed_lamps_redOut (s : State) (g : GroupId) : (s.leaveRed g).lamps.redOut = s.lamps.redOut := (s.leaveRed_follows g).lamps_redOut_eq
@[simp] theorem State.leaveRed_lamps_phase (s : State) (g : GroupId) : (s.leaveRed g).lamps.phase = s.lamps.phase := (s.leaveRed_follows g).lamps_phase_eq
@[simp] theorem State.leaveRed_lamps_flashCount (s : State) (g : GroupId) : (s.leaveRed g).lamps.flashCount = s.lamps.flashCount := (s.leaveRed_follows g).lamps_flashCount_eq
@[simp] theorem State.leaveRed_claims_own (s : State) (g : GroupId) : (s.leaveRed g).claims.own = s.claims.own := (s.leaveRed_follows g).claims_own_eq
@[simp] theorem State.leaveRed_claims_nextSerial (s : State) (g : GroupId) : (s.leaveRed g).claims.nextSerial = s.claims.nextSerial := (s.leaveRed_follows g).claims_nextSerial_eq
@[simp] theorem State.leaveRed_claims_refused (s : State) (g : GroupId) : (s.leaveRed g).claims.refused = s.claims.refused := (s.leaveRed_follows g).claims_refused_eq
@[simp] theorem State.leaveRed_claims_overflow (s : State) (g : GroupId) : (s.leaveRed g).claims.overflow = s.claims.overflow := (s.leaveRed_follows g).claims_overflow_eq

/-! ### enterGreen -/

@[simp] theorem State.enterGreen_pending (s : State) (g : GroupId) : (s.enterGreen g).pending = s.pending := (s.enterGreen_follows g).pending_eq
@[simp] theorem State.enterGreen_supplyOk (s : State) (g : GroupId) : (s.enterGreen g).supplyOk = s.supplyOk := (s.enterGreen_follows g).supplyOk_eq
@[simp] theorem State.enterGreen_resetPin (s : State) (g : GroupId) : (s.enterGreen g).resetPin = s.resetPin := (s.enterGreen_follows g).resetPin_eq
@[simp] theorem State.enterGreen_panel (s : State) (g : GroupId) : (s.enterGreen g).panel = s.panel := (s.enterGreen_follows g).panel_eq
@[simp] theorem State.enterGreen_planRead (s : State) (g : GroupId) : (s.enterGreen g).planRead = s.planRead := (s.enterGreen_follows g).planRead_eq
@[simp] theorem State.enterGreen_plan (s : State) (g : GroupId) : (s.enterGreen g).plan = s.plan := (s.enterGreen_follows g).plan_eq
@[simp] theorem State.enterGreen_line (s : State) (g : GroupId) : (s.enterGreen g).line = s.line := (s.enterGreen_follows g).line_eq
@[simp] theorem State.enterGreen_peers (s : State) (g : GroupId) : (s.enterGreen g).peers = s.peers := (s.enterGreen_follows g).peers_eq
@[simp] theorem State.enterGreen_latched (s : State) (g : GroupId) : (s.enterGreen g).latched = s.latched := (s.enterGreen_follows g).latched_eq
@[simp] theorem State.enterGreen_act (s : State) (g : GroupId) : (s.enterGreen g).act = s.act := (s.enterGreen_follows g).act_eq
@[simp] theorem State.enterGreen_cycle (s : State) (g : GroupId) : (s.enterGreen g).cycle = s.cycle := (s.enterGreen_follows g).cycle_eq
@[simp] theorem State.enterGreen_dets (s : State) (g : GroupId) : (s.enterGreen g).dets = s.dets := (s.enterGreen_follows g).dets_eq
@[simp] theorem State.enterGreen_remotes (s : State) (g : GroupId) : (s.enterGreen g).remotes = s.remotes := (s.enterGreen_follows g).remotes_eq
@[simp] theorem State.enterGreen_diag (s : State) (g : GroupId) : (s.enterGreen g).diag = s.diag := (s.enterGreen_follows g).diag_eq
@[simp] theorem State.enterGreen_ctrl_reasons (s : State) (g : GroupId) : (s.enterGreen g).ctrl.reasons = s.ctrl.reasons := (s.enterGreen_follows g).ctrl_reasons_eq
@[simp] theorem State.enterGreen_ctrl_firstFault (s : State) (g : GroupId) : (s.enterGreen g).ctrl.firstFault = s.ctrl.firstFault := (s.enterGreen_follows g).ctrl_firstFault_eq
@[simp] theorem State.enterGreen_ctrl_planFault (s : State) (g : GroupId) : (s.enterGreen g).ctrl.planFault = s.ctrl.planFault := (s.enterGreen_follows g).ctrl_planFault_eq
@[simp] theorem State.enterGreen_lamps_conflict (s : State) (g : GroupId) : (s.enterGreen g).lamps.conflict = s.lamps.conflict := (s.enterGreen_follows g).lamps_conflict_eq
@[simp] theorem State.enterGreen_lamps_redOut (s : State) (g : GroupId) : (s.enterGreen g).lamps.redOut = s.lamps.redOut := (s.enterGreen_follows g).lamps_redOut_eq
@[simp] theorem State.enterGreen_lamps_phase (s : State) (g : GroupId) : (s.enterGreen g).lamps.phase = s.lamps.phase := (s.enterGreen_follows g).lamps_phase_eq
@[simp] theorem State.enterGreen_lamps_flashCount (s : State) (g : GroupId) : (s.enterGreen g).lamps.flashCount = s.lamps.flashCount := (s.enterGreen_follows g).lamps_flashCount_eq
@[simp] theorem State.enterGreen_claims_own (s : State) (g : GroupId) : (s.enterGreen g).claims.own = s.claims.own := (s.enterGreen_follows g).claims_own_eq
@[simp] theorem State.enterGreen_claims_nextSerial (s : State) (g : GroupId) : (s.enterGreen g).claims.nextSerial = s.claims.nextSerial := (s.enterGreen_follows g).claims_nextSerial_eq
@[simp] theorem State.enterGreen_claims_refused (s : State) (g : GroupId) : (s.enterGreen g).claims.refused = s.claims.refused := (s.enterGreen_follows g).claims_refused_eq
@[simp] theorem State.enterGreen_claims_overflow (s : State) (g : GroupId) : (s.enterGreen g).claims.overflow = s.claims.overflow := (s.enterGreen_follows g).claims_overflow_eq

/-! ### setService -/

@[simp] theorem State.setService_pending (s : State) (c : Option StageId) : (s.setService c).pending = s.pending := (s.setService_follows c).pending_eq
@[simp] theorem State.setService_supplyOk (s : State) (c : Option StageId) : (s.setService c).supplyOk = s.supplyOk := (s.setService_follows c).supplyOk_eq
@[simp] theorem State.setService_resetPin (s : State) (c : Option StageId) : (s.setService c).resetPin = s.resetPin := (s.setService_follows c).resetPin_eq
@[simp] theorem State.setService_panel (s : State) (c : Option StageId) : (s.setService c).panel = s.panel := (s.setService_follows c).panel_eq
@[simp] theorem State.setService_planRead (s : State) (c : Option StageId) : (s.setService c).planRead = s.planRead := (s.setService_follows c).planRead_eq
@[simp] theorem State.setService_plan (s : State) (c : Option StageId) : (s.setService c).plan = s.plan := (s.setService_follows c).plan_eq
@[simp] theorem State.setService_line (s : State) (c : Option StageId) : (s.setService c).line = s.line := (s.setService_follows c).line_eq
@[simp] theorem State.setService_peers (s : State) (c : Option StageId) : (s.setService c).peers = s.peers := (s.setService_follows c).peers_eq
@[simp] theorem State.setService_latched (s : State) (c : Option StageId) : (s.setService c).latched = s.latched := (s.setService_follows c).latched_eq
@[simp] theorem State.setService_act (s : State) (c : Option StageId) : (s.setService c).act = s.act := (s.setService_follows c).act_eq
@[simp] theorem State.setService_cycle (s : State) (c : Option StageId) : (s.setService c).cycle = s.cycle := (s.setService_follows c).cycle_eq
@[simp] theorem State.setService_dets (s : State) (c : Option StageId) : (s.setService c).dets = s.dets := (s.setService_follows c).dets_eq
@[simp] theorem State.setService_remotes (s : State) (c : Option StageId) : (s.setService c).remotes = s.remotes := (s.setService_follows c).remotes_eq
@[simp] theorem State.setService_diag (s : State) (c : Option StageId) : (s.setService c).diag = s.diag := (s.setService_follows c).diag_eq
@[simp] theorem State.setService_ctrl_reasons (s : State) (c : Option StageId) : (s.setService c).ctrl.reasons = s.ctrl.reasons := (s.setService_follows c).ctrl_reasons_eq
@[simp] theorem State.setService_ctrl_firstFault (s : State) (c : Option StageId) : (s.setService c).ctrl.firstFault = s.ctrl.firstFault := (s.setService_follows c).ctrl_firstFault_eq
@[simp] theorem State.setService_ctrl_planFault (s : State) (c : Option StageId) : (s.setService c).ctrl.planFault = s.ctrl.planFault := (s.setService_follows c).ctrl_planFault_eq
@[simp] theorem State.setService_lamps_conflict (s : State) (c : Option StageId) : (s.setService c).lamps.conflict = s.lamps.conflict := (s.setService_follows c).lamps_conflict_eq
@[simp] theorem State.setService_lamps_redOut (s : State) (c : Option StageId) : (s.setService c).lamps.redOut = s.lamps.redOut := (s.setService_follows c).lamps_redOut_eq
@[simp] theorem State.setService_lamps_phase (s : State) (c : Option StageId) : (s.setService c).lamps.phase = s.lamps.phase := (s.setService_follows c).lamps_phase_eq
@[simp] theorem State.setService_lamps_flashCount (s : State) (c : Option StageId) : (s.setService c).lamps.flashCount = s.lamps.flashCount := (s.setService_follows c).lamps_flashCount_eq
@[simp] theorem State.setService_claims_own (s : State) (c : Option StageId) : (s.setService c).claims.own = s.claims.own := (s.setService_follows c).claims_own_eq
@[simp] theorem State.setService_claims_nextSerial (s : State) (c : Option StageId) : (s.setService c).claims.nextSerial = s.claims.nextSerial := (s.setService_follows c).claims_nextSerial_eq
@[simp] theorem State.setService_claims_refused (s : State) (c : Option StageId) : (s.setService c).claims.refused = s.claims.refused := (s.setService_follows c).claims_refused_eq
@[simp] theorem State.setService_claims_overflow (s : State) (c : Option StageId) : (s.setService c).claims.overflow = s.claims.overflow := (s.setService_follows c).claims_overflow_eq

/-! ### follow -/

@[simp] theorem State.follow_pending (s : State) : s.follow.pending = s.pending := s.follow_follows.pending_eq
@[simp] theorem State.follow_supplyOk (s : State) : s.follow.supplyOk = s.supplyOk := s.follow_follows.supplyOk_eq
@[simp] theorem State.follow_resetPin (s : State) : s.follow.resetPin = s.resetPin := s.follow_follows.resetPin_eq
@[simp] theorem State.follow_panel (s : State) : s.follow.panel = s.panel := s.follow_follows.panel_eq
@[simp] theorem State.follow_planRead (s : State) : s.follow.planRead = s.planRead := s.follow_follows.planRead_eq
@[simp] theorem State.follow_plan (s : State) : s.follow.plan = s.plan := s.follow_follows.plan_eq
@[simp] theorem State.follow_line (s : State) : s.follow.line = s.line := s.follow_follows.line_eq
@[simp] theorem State.follow_peers (s : State) : s.follow.peers = s.peers := s.follow_follows.peers_eq
@[simp] theorem State.follow_latched (s : State) : s.follow.latched = s.latched := s.follow_follows.latched_eq
@[simp] theorem State.follow_act (s : State) : s.follow.act = s.act := s.follow_follows.act_eq
@[simp] theorem State.follow_cycle (s : State) : s.follow.cycle = s.cycle := s.follow_follows.cycle_eq
@[simp] theorem State.follow_dets (s : State) : s.follow.dets = s.dets := s.follow_follows.dets_eq
@[simp] theorem State.follow_remotes (s : State) : s.follow.remotes = s.remotes := s.follow_follows.remotes_eq
@[simp] theorem State.follow_diag (s : State) : s.follow.diag = s.diag := s.follow_follows.diag_eq
@[simp] theorem State.follow_ctrl_reasons (s : State) : s.follow.ctrl.reasons = s.ctrl.reasons := s.follow_follows.ctrl_reasons_eq
@[simp] theorem State.follow_ctrl_firstFault (s : State) : s.follow.ctrl.firstFault = s.ctrl.firstFault := s.follow_follows.ctrl_firstFault_eq
@[simp] theorem State.follow_ctrl_planFault (s : State) : s.follow.ctrl.planFault = s.ctrl.planFault := s.follow_follows.ctrl_planFault_eq
@[simp] theorem State.follow_lamps_conflict (s : State) : s.follow.lamps.conflict = s.lamps.conflict := s.follow_follows.lamps_conflict_eq
@[simp] theorem State.follow_lamps_redOut (s : State) : s.follow.lamps.redOut = s.lamps.redOut := s.follow_follows.lamps_redOut_eq
@[simp] theorem State.follow_lamps_phase (s : State) : s.follow.lamps.phase = s.lamps.phase := s.follow_follows.lamps_phase_eq
@[simp] theorem State.follow_lamps_flashCount (s : State) : s.follow.lamps.flashCount = s.lamps.flashCount := s.follow_follows.lamps_flashCount_eq
@[simp] theorem State.follow_claims_own (s : State) : s.follow.claims.own = s.claims.own := s.follow_follows.claims_own_eq
@[simp] theorem State.follow_claims_nextSerial (s : State) : s.follow.claims.nextSerial = s.claims.nextSerial := s.follow_follows.claims_nextSerial_eq
@[simp] theorem State.follow_claims_refused (s : State) : s.follow.claims.refused = s.claims.refused := s.follow_follows.claims_refused_eq
@[simp] theorem State.follow_claims_overflow (s : State) : s.follow.claims.overflow = s.claims.overflow := s.follow_follows.claims_overflow_eq

end Sys2Proof.Machine
end

