-- ==== Sys2Proof/Laws/Claims.lean ====
section
/-! SUPPORT. Laws/Claims.lean: what the operations of the claim unit leave, and what they keep of the claim table. -/

namespace Sys2Proof.Machine

/-- Only the claim table, the own claims and the overflow count differ between the two states. -/
def State.onlyClaims (s t : State) : Prop :=
  t = { s with claims := { s.claims with
    table := t.claims.table, own := t.claims.own, overflow := t.claims.overflow } }

theorem State.onlyClaims_refl (s : State) : s.onlyClaims s := rfl

theorem State.onlyClaims.trans {s t u : State} (h : s.onlyClaims t) (k : t.onlyClaims u) : s.onlyClaims u := by
  unfold State.onlyClaims at *
  rw [h] at k
  exact k

theorem State.offer_only (s : State) (e : ClaimEntry) : s.onlyClaims (s.offer e) := by
  unfold State.offer
  dsimp only
  split
  · rfl
  · split <;> rfl

theorem State.offerOwn_only (s : State) (p : Plan) (o : OwnClaim) : s.onlyClaims (s.offerOwn p o) := by
  unfold State.offerOwn
  split
  · rfl
  · split
    · rfl
    · exact s.offer_only _

theorem State.offerPeer_only (s : State) (p : Plan) (k : StationId) (c : ClaimField) :
    s.onlyClaims (s.offerPeer p k c) := by
  unfold State.offerPeer
  split
  · rfl
  · split
    · rfl
    · exact s.offer_only _

theorem State.entry_only (s : State) (p : Plan) : s.onlyClaims (s.entry p) := by
  have h1 : ∀ (l : List (StationId × ClaimField)) (t : State),
      t.onlyClaims (l.foldl (State.offerPublished p) t) := by
    intro l
    induction l with
    | nil => exact fun t => t.onlyClaims_refl
    | cons a l ih =>
      intro t
      rw [List.foldl_cons]
      unfold State.offerPublished
      by_cases ha : p.isPeer a.1 = true
      · rw [if_pos ha]; exact (t.offerPeer_only p a.1 a.2).trans (ih _)
      · rw [if_neg ha]; exact ih t
  have h2 : ∀ (l : List OwnClaim) (t : State),
      t.onlyClaims (l.foldl (fun t o => t.offerOwn p o) t) := by
    intro l
    induction l with
    | nil => exact fun t => t.onlyClaims_refl
    | cons a l ih => intro t; exact (t.offerOwn_only p a).trans (ih _)
  exact (h1 _ s).trans (h2 _ _)

/-- Steps 1 to 5 of the claim unit's handling of a boundary (R147). -/
def State.claimSteps (s : State) (p : Plan) : State :=
  (s.claimRemovals p).entry p

theorem State.claimSteps_only (s : State) (p : Plan) : s.onlyClaims (s.claimSteps p) :=
  State.onlyClaims.trans (t := s.claimRemovals p)
    rfl (State.entry_only _ p)

theorem State.claimBoundary_eq (s : State) (p : Plan) : s.claimBoundary p =
    if servingLost s.claims.table (s.claimSteps p).claims.table || (s.claimRemovals p).entryReady p
    then (s.claimSteps p).arbitrate
    else s.claimSteps p := rfl

/-! ### Own claims -/

theorem State.offer_own (s : State) (e : ClaimEntry) : (s.offer e).claims.own = s.claims.own := by
  unfold State.offer
  dsimp only
  split
  · rfl
  · split <;> rfl

theorem State.offerOwn_own (s : State) (p : Plan) (o : OwnClaim) : (s.offerOwn p o).claims.own = s.claims.own := by
  unfold State.offerOwn
  split
  · rfl
  · split
    · rfl
    · exact s.offer_own _

/-- The next serial is held by no listed own claim, of which there are at most two (R130). -/
theorem freeSerial_fresh (a b : Fin 16) (n : Fin 16) (k : Nat) (own : List OwnClaim)
    (h : ∀ m, (own.any fun o => o.serial == m) = true → m = a ∨ m = b) :
    (own.any fun o => o.serial == freeSerial own (k + 3) n) = false := by
  have hstep : ∀ j m, freeSerial own (j + 1) m =
      if own.any fun o => o.serial == m then freeSerial own j (m + 1) else m := fun _ _ => rfl
  have hd : ∀ a b n : Fin 16, (n = a ∨ n = b) → (n + 1 = a ∨ n + 1 = b) → (n + 1 + 1 = a ∨ n + 1 + 1 = b) → False := by
    decide +revert
  by_cases h0 : (own.any fun o => o.serial == n) = true
  · by_cases h1 : (own.any fun o => o.serial == n + 1) = true
    · by_cases h2 : (own.any fun o => o.serial == n + 1 + 1) = true
      · exact (hd a b n (h _ h0) (h _ h1) (h _ h2)).elim
      · rw [hstep, if_pos h0, hstep, if_pos h1, hstep, if_neg h2]; simpa using h2
    · rw [hstep, if_pos h0, hstep, if_neg h1]; simpa using h1
  · rw [hstep, if_neg h0]; simpa using h0

/-- The next serial is the first from `n` on that no listed own claim holds, of which there are at most two (R130). -/
theorem freeSerial_law (a b : Fin 16) (n : Fin 16) (k : Nat) (own : List OwnClaim)
    (h : ∀ m, (own.any fun o => o.serial == m) = true → m = a ∨ m = b) :
    ∃ j : Fin 16, freeSerial own (k + 3) n = n + j ∧
      (∀ i, i < j → (own.any fun o => o.serial == n + i) = true) ∧
      (own.any fun o => o.serial == n + j) = false := by
  have hf := freeSerial_fresh a b n k own h
  have hstep : ∀ j m, freeSerial own (j + 1) m =
      if own.any fun o => o.serial == m then freeSerial own j (m + 1) else m := fun _ _ => rfl
  have h12 : ∀ m : Fin 16, m + 1 + 1 = m + 2 := by decide
  by_cases h0 : (own.any fun o => o.serial == n) = true
  · by_cases h1 : (own.any fun o => o.serial == n + 1) = true
    · by_cases h2 : (own.any fun o => o.serial == n + 1 + 1) = true
      · have hd : ∀ a b n : Fin 16, (n = a ∨ n = b) → (n + 1 = a ∨ n + 1 = b) → (n + 1 + 1 = a ∨ n + 1 + 1 = b) → False := by
          decide +revert
        exact (hd a b n (h _ h0) (h _ h1) (h _ h2)).elim
      · have e : freeSerial own (k + 3) n = n + 2 := by
          rw [hstep, if_pos h0, hstep, if_pos h1, hstep, if_neg h2, h12]
        refine ⟨2, e, fun i hi => ?_, by rw [← e]; exact hf⟩
        have : i = 0 ∨ i = 1 := by revert i; decide
        rcases this with rfl | rfl
        · simpa using h0
        · exact h1
    · have e : freeSerial own (k + 3) n = n + 1 := by rw [hstep, if_pos h0, hstep, if_neg h1]
      refine ⟨1, e, fun i hi => ?_, by rw [← e]; exact hf⟩
      have : i = 0 := by revert i; decide
      subst this
      simpa using h0
  · have e : freeSerial own (k + 3) n = n := by rw [hstep, if_neg h0]
    refine ⟨0, by rw [e]; simp, fun i hi => absurd hi (by revert i; decide), by simpa using h0⟩

/-- The own claim that a claim edge raises (R130). -/
def Plan.raise (p : Plan) (serial : Fin 16) (n : RouteId) (q : Priority) : OwnClaim :=
  { serial := serial, route := n, priority := q, life := second * p.lifeOf q, clearedBy := 0 }

/-- The state with the own claim listed, before it is offered to the table. -/
def State.withRaised (s : State) (o : OwnClaim) : State :=
  { s with claims := { s.claims with
    own := s.claims.own ++ [o], nextSerial := freeSerial (s.claims.own ++ [o]) 16 (s.claims.nextSerial + 1) } }

theorem State.claimEdge_raises {s : State} {p : Plan} {n : RouteId} (q : Priority) (hp : s.plan = some p)
    (h1 : s.claims.own.length < 2) (h2 : ∀ o ∈ s.claims.own, o.route ≠ n) :
    s.claimEdge n q =
      ((s.withRaised (p.raise s.claims.nextSerial n q)).offerOwn p (p.raise s.claims.nextSerial n q)).arbitrate := by
  have hc : s.claims.own.length < 2 ∧ ¬ (s.claims.own.any fun o => o.route == n) = true := by
    refine ⟨h1, fun h => ?_⟩
    obtain ⟨o, ho, hr⟩ := List.any_eq_true.mp h
    exact h2 o ho (by simpa using hr)
  unfold State.claimEdge
  split
  · rename_i hn; rw [hp] at hn; cases hn
  · rename_i p' hp'
    obtain rfl : p = p' := by rw [hp] at hp'; exact Option.some.inj hp'
    rw [if_pos hc]
    rfl

theorem State.claimEdge_refused {s : State} {p : Plan} {n : RouteId} (q : Priority) (hp : s.plan = some p)
    (h : 2 ≤ s.claims.own.length ∨ ∃ o ∈ s.claims.own, o.route = n) :
    s.claimEdge n q = { s with claims := { s.claims with refused := s.claims.refused + 1 } } := by
  have hc : ¬ (s.claims.own.length < 2 ∧ ¬ (s.claims.own.any fun o => o.route == n) = true) := by
    rintro ⟨h1, h2⟩
    rcases h with h | ⟨o, ho, hr⟩
    · omega
    · exact h2 (List.any_eq_true.mpr ⟨o, ho, by simp [hr]⟩)
  unfold State.claimEdge
  split
  · rename_i hn; rw [hp] at hn; cases hn
  · rw [if_neg hc]

theorem State.claimEdge_none {s : State} (n : RouteId) (q : Priority) (hp : s.plan = none) : s.claimEdge n q = s := by
  unfold State.claimEdge
  split
  · rfl
  · rename_i p' hp'; rw [hp] at hp'; cases hp'

/-- A claim edge raises a claim, is refused, or finds no plan: the three cases of R130. -/
theorem State.claimEdge_cases (s : State) (n : RouteId) (q : Priority) :
    (s.claimEdge n q = s ∧ s.plan = none) ∨
    (∃ p, s.plan = some p ∧ s.claims.own.length < 2 ∧ (∀ o ∈ s.claims.own, o.route ≠ n) ∧ s.claimEdge n q =
      ((s.withRaised (p.raise s.claims.nextSerial n q)).offerOwn p (p.raise s.claims.nextSerial n q)).arbitrate) ∨
    s.claimEdge n q = { s with claims := { s.claims with refused := s.claims.refused + 1 } } := by
  rcases Option.eq_none_or_eq_some s.plan with hp | ⟨p, hp⟩
  · exact Or.inl ⟨State.claimEdge_none n q hp, hp⟩
  · right
    by_cases h1 : s.claims.own.length < 2
    · by_cases h2 : ∀ o ∈ s.claims.own, o.route ≠ n
      · exact Or.inl ⟨p, hp, h1, h2, State.claimEdge_raises q hp h1 h2⟩
      · refine Or.inr (State.claimEdge_refused q hp (Or.inr ?_))
        refine Classical.byContradiction fun h => h2 fun o ho hr => h ⟨o, ho, hr⟩
    · exact Or.inr (State.claimEdge_refused q hp (Or.inl (by omega)))

/-- A check-out edge in its cases (R142). -/
theorem State.checkOut_cases (s : State) (n : RouteId) :
    (s.serving n = true ∧ s.checkOut n = (s.clearFirst fun e => e.route == n && e.state == .serving).arbitrate) ∨
    s.checkOut n = s ∨
    (s.serving n = false ∧ s.checkOut n = s.clearFirst fun f => f.route == n && !(f.state == .expired)) := by
  unfold State.checkOut
  by_cases h : s.serving n = true
  · rw [if_pos h]; exact Or.inl ⟨h, rfl⟩
  · rw [if_neg h]
    right
    split
    · exact Or.inl rfl
    · split
      · exact Or.inl rfl
      · exact Or.inr ⟨by simpa using h, rfl⟩

/-! ### The first entry of its kind -/

theorem updFirst_split {α : Type} {p : α → Bool} (f : α → α) {l : List α} {e : α} (r : List α)
    (hl : ∀ x ∈ l, p x = false) (he : p e = true) : updFirst p f (l ++ e :: r) = l ++ f e :: r := by
  induction l with
  | nil => show (if p e then f e :: r else e :: updFirst p f r) = f e :: r; rw [if_pos he]
  | cons a l ih =>
    have ha : p a = false := hl a (by simp)
    show (if p a then f a :: (l ++ e :: r) else a :: updFirst p f (l ++ e :: r)) = a :: (l ++ f e :: r)
    rw [if_neg (by simp [ha]), ih fun x hx => hl x (by simp [hx])]

theorem find_split {α : Type} {p : α → Bool} {l : List α} {e : α} (r : List α)
    (hl : ∀ x ∈ l, p x = false) (he : p e = true) : (l ++ e :: r).find? p = some e := by
  induction l with
  | nil => simp [he]
  | cons a l ih =>
    have ha : p a = false := hl a (by simp)
    rw [List.cons_append, List.find?_cons, ha]
    exact ih fun x hx => hl x (by simp [hx])

theorem eraseP_split {α : Type} {p : α → Bool} {l : List α} {e : α} (r : List α)
    (hl : ∀ x ∈ l, p x = false) (he : p e = true) : (l ++ e :: r).eraseP p = l ++ r := by
  induction l with
  | nil => simp [he]
  | cons a l ih =>
    have ha : p a = false := hl a (by simp)
    rw [List.cons_append, List.eraseP_cons, ha]
    simp only [cond_false, List.cons_append]
    rw [ih fun x hx => hl x (by simp [hx])]

theorem ClaimEntry.is_iff {o : StationId} {n : Fin 16} {e : ClaimEntry} :
    e.is o n = true ↔ e.origin = o ∧ e.serial = n := by
  unfold ClaimEntry.is; simp

theorem ClaimEntry.is_self (e : ClaimEntry) : e.is e.origin e.serial = true := ClaimEntry.is_iff.mpr ⟨rfl, rfl⟩

theorem ClaimEntry.is_false {o : StationId} {n : Fin 16} {e : ClaimEntry} (h : ¬ (e.origin = o ∧ e.serial = n)) :
    e.is o n = false := by
  cases hb : e.is o n with
  | false => rfl
  | true => exact absurd (ClaimEntry.is_iff.mp hb) h

theorem State.updClaim_split {s : State} {l r : List ClaimEntry} {e : ClaimEntry} (f : ClaimEntry → ClaimEntry)
    (h : s.claims.table = l ++ e :: r) (hl : ∀ x ∈ l, ¬ (x.origin = e.origin ∧ x.serial = e.serial)) :
    s.updClaim e.origin e.serial f = s.withClaimTable (l ++ f e :: r) := by
  unfold State.updClaim
  rw [h, updFirst_split f r (fun x hx => ClaimEntry.is_false (hl x hx)) e.is_self]

theorem State.findClaim_split {s : State} {l r : List ClaimEntry} {e : ClaimEntry}
    (h : s.claims.table = l ++ e :: r) (hl : ∀ x ∈ l, ¬ (x.origin = e.origin ∧ x.serial = e.serial)) :
    s.findClaim e.origin e.serial = some e := by
  unfold State.findClaim
  rw [h]
  exact find_split r (fun x hx => ClaimEntry.is_false (hl x hx)) e.is_self

theorem State.clearFirst_split {s : State} {p : ClaimEntry → Bool} {l r : List ClaimEntry} {e : ClaimEntry}
    (h : s.claims.table = l ++ e :: r) (hl : ∀ x ∈ l, p x = false) (he : p e = true) :
    s.clearFirst p = { s with claims := { s.claims with
      table := l ++ { e with state := .cleared, hold := none, clearedOrder := some s.claims.place } :: r
      clearPlace := some s.claims.place } } := by
  unfold State.clearFirst
  dsimp only
  rw [h, updFirst_split _ r hl he]
  rfl

/-- A place that is taken now comes after every CLEARED entry (R131). -/
theorem Claims.place_above {c : Claims} (h : c.clearPlace = none) {e : ClaimEntry} {n : Nat}
    (he : e ∈ c.table) (hn : e.clearedOrder = some n) : n < c.place := by
  have h1 : ∀ (l : List ClaimEntry) (m : Nat),
      m ≤ l.foldl (fun m e => max m ((e.clearedOrder.map (· + 1)).getD 0)) m := by
    intro l
    induction l with
    | nil => exact fun m => Nat.le_refl m
    | cons a l ih => exact fun m => Nat.le_trans (Nat.le_max_left _ _) (ih _)
  have h2 : ∀ (l : List ClaimEntry) (m : Nat), e ∈ l →
      n + 1 ≤ l.foldl (fun m e => max m ((e.clearedOrder.map (· + 1)).getD 0)) m := by
    intro l
    induction l with
    | nil => intro m h; cases h
    | cons a l ih =>
      intro m hm
      rcases List.mem_cons.mp hm with rfl | hm
      · refine Nat.le_trans ?_ (h1 l _)
        show n + 1 ≤ max m ((e.clearedOrder.map (· + 1)).getD 0)
        rw [hn]
        exact Nat.le_max_right _ _
      · exact ih _ hm
  unfold Claims.place
  rw [h]
  exact h2 c.table 0 he

end Sys2Proof.Machine
end

