-- ==== Sys2Proof/Laws/Boundary.lean ====
section
/-! SUPPORT. Laws/Boundary.lean: what a frame boundary does to each block, and what it leaves. -/

namespace Sys2Proof.Machine

/-- What the blocks of a plan leave at a boundary: everything that does not follow from the groups, the
sequencer, the claim unit and the lamps, but the line's cycle-mark request, the cycle unit, the remote detectors
and the latched flags. -/
def State.bounds (s t : State) : Prop :=
  t.pending = s.pending ∧ t.supplyOk = s.supplyOk ∧ t.resetPin = s.resetPin ∧ t.panel = s.panel ∧
  t.planRead = s.planRead ∧ t.plan = s.plan ∧ (∃ q, t.line = { s.line with cycleMarkReq := q }) ∧
  t.peers = s.peers ∧ t.act = s.act ∧ t.dets = s.dets ∧ t.diag = s.diag ∧
  t.ctrl.reasons = s.ctrl.reasons ∧ t.ctrl.firstFault = s.ctrl.firstFault ∧
  t.ctrl.planFault = s.ctrl.planFault ∧ t.lamps.conflict = s.lamps.conflict ∧
  t.lamps.redOut = s.lamps.redOut ∧ t.lamps.phase = s.lamps.phase ∧ t.lamps.flashCount = s.lamps.flashCount ∧
  t.claims.nextSerial = s.claims.nextSerial ∧ t.claims.refused = s.claims.refused

theorem State.bounds_refl (s : State) : s.bounds s :=
  ⟨rfl, rfl, rfl, rfl, rfl, rfl, ⟨_, rfl⟩, rfl, rfl, rfl, rfl, rfl, rfl, rfl, rfl, rfl, rfl, rfl, rfl, rfl⟩

theorem State.bounds.trans {s t u : State} (h : s.bounds t) (k : t.bounds u) : s.bounds u := by
  obtain ⟨h0, h1, h2, h3, h4, h5, ⟨q, h6⟩, h7, h8, h9, h10, h11, h12, h13, h14, h15, h16, h17, h18, h19⟩ := h
  obtain ⟨k0, k1, k2, k3, k4, k5, ⟨r, k6⟩, k7, k8, k9, k10, k11, k12, k13, k14, k15, k16, k17, k18, k19⟩ := k
  exact ⟨k0.trans h0, k1.trans h1, k2.trans h2, k3.trans h3, k4.trans h4, k5.trans h5,
    ⟨r, by rw [k6, h6]⟩, k7.trans h7, k8.trans h8, k9.trans h9, k10.trans h10, k11.trans h11,
    k12.trans h12, k13.trans h13, k14.trans h14, k15.trans h15, k16.trans h16, k17.trans h17,
    k18.trans h18, k19.trans h19⟩

theorem State.follows.bounds {s t : State} (h : s.follows t) : s.bounds t :=
  ⟨h.pending_eq, h.supplyOk_eq, h.resetPin_eq, h.panel_eq, h.planRead_eq, h.plan_eq, ⟨_, h.line_eq⟩, h.peers_eq,
    h.act_eq, h.dets_eq, h.diag_eq, h.ctrl_reasons_eq, h.ctrl_firstFault_eq, h.ctrl_planFault_eq,
    h.lamps_conflict_eq, h.lamps_redOut_eq, h.lamps_phase_eq, h.lamps_flashCount_eq, h.claims_nextSerial_eq,
    h.claims_refused_eq⟩

/-! ### The blocks of a plan -/

theorem State.cycleSteps_congr {s t : State} (p : Plan) (heard : Bool) (h1 : t.cycle = s.cycle)
    (h2 : t.peers = s.peers) : t.cycleSteps p heard = s.cycleSteps p heard := by
  unfold State.cycleSteps State.majority State.allRequest State.showing State.presentCount State.presentRecord
  rw [h1, h2]

theorem State.remoteValue_congr {s t : State} (r : RemoteId) (h1 : t.plan = s.plan) (h2 : t.peers = s.peers) :
    t.remoteValue r = s.remoteValue r := by
  unfold State.remoteValue State.remoteDef State.presentRecord
  rw [h1, h2]

theorem State.requestMark_line (s : State) (p : Plan) :
    ∃ q, s.requestMark p = { s with line := { s.line with cycleMarkReq := q } } := by
  unfold State.requestMark
  split
  · exact ⟨_, rfl⟩
  · exact ⟨s.line.cycleMarkReq, rfl⟩

theorem State.cycleOutput_follows (s : State) (p : Plan) (c : Cycle) (d : Bool) :
    s.follows (s.cycleOutput p c d) :=
  (State.takeNotices_follows s _).trans (State.react_follows _)

theorem State.cycleBoundary_law (s : State) (p : Plan) (heard : Bool) :
    s.bounds (s.cycleBoundary p heard) ∧ (s.cycleBoundary p heard).cycle = (s.cycleSteps p heard).1 ∧
      (s.cycleBoundary p heard).remotes = s.remotes ∧ (s.cycleBoundary p heard).latched = s.latched := by
  obtain ⟨q, hq⟩ := State.requestMark_line { s with cycle := (s.cycleSteps p heard).1 } p
  have h : s.cycleBoundary p heard = State.cycleOutput
      (State.requestMark { s with cycle := (s.cycleSteps p heard).1 } p) p s.cycle (s.cycleSteps p heard).2 := rfl
  rw [h, hq]
  have hf := State.cycleOutput_follows
    { s with cycle := (s.cycleSteps p heard).1, line := { s.line with cycleMarkReq := q } } p s.cycle
    (s.cycleSteps p heard).2
  refine ⟨State.bounds.trans ?_ hf.bounds, hf.cycle_eq, hf.remotes_eq, hf.latched_eq⟩
  exact ⟨rfl, rfl, rfl, rfl, rfl, rfl, ⟨q, rfl⟩, rfl, rfl, rfl, rfl, rfl, rfl, rfl, rfl, rfl, rfl, rfl, rfl, rfl⟩

theorem State.remoteBoundary_law (s : State) :
    s.bounds s.remoteBoundary ∧ s.remoteBoundary.cycle = s.cycle ∧
      (∀ r, s.remoteBoundary.remotes.nth r = s.remoteValue r) ∧ s.remoteBoundary.latched = s.latched := by
  have hf := State.react_follows { s with remotes := .tab fun r => s.remoteValue r }
  refine ⟨State.bounds.trans ?_ hf.bounds, hf.cycle_eq, fun r => ?_, hf.latched_eq⟩
  · exact ⟨rfl, rfl, rfl, rfl, rfl, rfl, ⟨_, rfl⟩, rfl, rfl, rfl, rfl, rfl, rfl, rfl, rfl, rfl, rfl, rfl, rfl, rfl⟩
  · have h : s.remoteBoundary.remotes = Table.tab fun r => s.remoteValue r := hf.remotes_eq
    rw [h, Table.nth_tab]

theorem State.onlyClaims.bounds {s t : State} (h : s.onlyClaims t) :
    s.bounds t ∧ t.cycle = s.cycle ∧ t.remotes = s.remotes ∧ t.latched = s.latched := by
  unfold State.onlyClaims at h
  rw [h]
  exact ⟨⟨rfl, rfl, rfl, rfl, rfl, rfl, ⟨_, rfl⟩, rfl, rfl, rfl, rfl, rfl, rfl, rfl, rfl, rfl, rfl, rfl, rfl, rfl⟩,
    rfl, rfl, rfl⟩

theorem State.claimsBoundary_law (s : State) (p : Plan) :
    s.bounds (s.claimsBoundary p) ∧ (s.claimsBoundary p).cycle = s.cycle ∧
      (s.claimsBoundary p).remotes = s.remotes ∧ (s.claimsBoundary p).latched = s.latched := by
  have h1 := (s.claimSteps_only p).bounds
  have h2 : (s.claimSteps p).follows (s.claimsBoundary p) := by
    unfold State.claimsBoundary
    rw [s.claimBoundary_eq p]
    split
    · exact (State.arbitrate_follows _).trans (State.react_follows _)
    · exact State.react_follows _
  exact ⟨h1.1.trans h2.bounds, h2.cycle_eq.trans h1.2.1, h2.remotes_eq.trans h1.2.2.1, h2.latched_eq.trans h1.2.2.2⟩

theorem State.bounds.peers {s t : State} (h : s.bounds t) : t.peers = s.peers := h.2.2.2.2.2.2.2.1

theorem State.bounds.plan {s t : State} (h : s.bounds t) : t.plan = s.plan := h.2.2.2.2.2.1

/-- Whatever their order, the cycle unit takes its steps, every remote detector its value, and the rest stands. -/
theorem State.blocksBoundary_law (s : State) (p : Plan) (heard : Bool) (n : Nat) :
    s.bounds (s.blocksBoundary p heard n) ∧
      (s.blocksBoundary p heard n).cycle = (s.cycleSteps p heard).1 ∧
      (∀ r, (s.blocksBoundary p heard n).remotes.nth r = s.remoteValue r) ∧
      (s.blocksBoundary p heard n).latched = s.latched := by
  unfold State.blocksBoundary
  split
  · have a := State.cycleBoundary_law s p heard
    have b := State.remoteBoundary_law (s.cycleBoundary p heard)
    have c := State.claimsBoundary_law (s.cycleBoundary p heard).remoteBoundary p
    refine ⟨(a.1.trans b.1).trans c.1, ?_, fun r => ?_, ?_⟩
    · rw [c.2.1, b.2.1, a.2.1]
    · rw [c.2.2.1, b.2.2.1 r]; exact State.remoteValue_congr r a.1.plan a.1.peers
    · rw [c.2.2.2, b.2.2.2, a.2.2.2]
  · have a := State.cycleBoundary_law s p heard
    have b := State.claimsBoundary_law (s.cycleBoundary p heard) p
    have c := State.remoteBoundary_law ((s.cycleBoundary p heard).claimsBoundary p)
    refine ⟨(a.1.trans b.1).trans c.1, ?_, fun r => ?_, ?_⟩
    · rw [c.2.1, b.2.1, a.2.1]
    · rw [c.2.2.1 r]; exact State.remoteValue_congr r (a.1.trans b.1).plan (a.1.trans b.1).peers
    · rw [c.2.2.2, b.2.2.2, a.2.2.2]
  · have a := State.remoteBoundary_law s
    have b := State.cycleBoundary_law s.remoteBoundary p heard
    have c := State.claimsBoundary_law (s.remoteBoundary.cycleBoundary p heard) p
    refine ⟨(a.1.trans b.1).trans c.1, ?_, fun r => ?_, ?_⟩
    · rw [c.2.1, b.2.1, State.cycleSteps_congr p heard a.2.1 a.1.peers]
    · rw [c.2.2.1, b.2.2.1, a.2.2.1]
    · rw [c.2.2.2, b.2.2.2, a.2.2.2]
  · have a := State.remoteBoundary_law s
    have b := State.claimsBoundary_law s.remoteBoundary p
    have c := State.cycleBoundary_law (s.remoteBoundary.claimsBoundary p) p heard
    refine ⟨(a.1.trans b.1).trans c.1, ?_, fun r => ?_, ?_⟩
    · rw [c.2.1, State.cycleSteps_congr p heard (b.2.1.trans a.2.1) (a.1.trans b.1).peers]
    · rw [c.2.2.1, b.2.2.1, a.2.2.1]
    · rw [c.2.2.2, b.2.2.2, a.2.2.2]
  · have a := State.claimsBoundary_law s p
    have b := State.cycleBoundary_law (s.claimsBoundary p) p heard
    have c := State.remoteBoundary_law ((s.claimsBoundary p).cycleBoundary p heard)
    refine ⟨(a.1.trans b.1).trans c.1, ?_, fun r => ?_, ?_⟩
    · rw [c.2.1, b.2.1, State.cycleSteps_congr p heard a.2.1 a.1.peers]
    · rw [c.2.2.1 r]; exact State.remoteValue_congr r (a.1.trans b.1).plan (a.1.trans b.1).peers
    · rw [c.2.2.2, b.2.2.2, a.2.2.2]
  · have a := State.claimsBoundary_law s p
    have b := State.remoteBoundary_law (s.claimsBoundary p)
    have c := State.cycleBoundary_law (s.claimsBoundary p).remoteBoundary p heard
    refine ⟨(a.1.trans b.1).trans c.1, ?_, fun r => ?_, ?_⟩
    · rw [c.2.1, State.cycleSteps_congr p heard (b.2.1.trans a.2.1) (a.1.trans b.1).peers]
    · rw [c.2.2.1, b.2.2.1 r]; exact State.remoteValue_congr r a.1.plan a.1.peers
    · rw [c.2.2.2, b.2.2.2, a.2.2.2]

/-- The cycle-mark request is set where the unit has landed on its last position (R44). -/
theorem State.cycleBoundary_line (s : State) (p : Plan) (heard : Bool) :
    (s.cycleBoundary p heard).line = { s.line with cycleMarkReq := s.line.cycleMarkReq ||
      ((s.cycleSteps p heard).1.set && (s.cycleSteps p heard).1.position + 1 == p.cOf (s.cycleSteps p heard).1.active) } := by
  have h : s.cycleBoundary p heard = State.cycleOutput
      (State.requestMark { s with cycle := (s.cycleSteps p heard).1 } p) p s.cycle (s.cycleSteps p heard).2 := rfl
  rw [h, (State.cycleOutput_follows _ _ _ _).line_eq]
  unfold State.requestMark
  dsimp only
  split
  · rename_i k
    rw [k, Bool.or_true]
  · rename_i k
    rw [Bool.not_eq_true] at k
    rw [k, Bool.or_false]

theorem State.remoteBoundary_line (s : State) : s.remoteBoundary.line = s.line := by
  have hf := State.react_follows { s with remotes := .tab fun r => s.remoteValue r }
  exact hf.line_eq

theorem State.claimsBoundary_line (s : State) (p : Plan) : (s.claimsBoundary p).line = s.line := by
  have h1 : (s.claimSteps p).line = s.line := by rw [s.claimSteps_only p]
  unfold State.claimsBoundary
  rw [(State.react_follows _).line_eq, s.claimBoundary_eq p]
  split
  · rw [(State.arbitrate_follows _).line_eq, h1]
  · exact h1

theorem State.blocksBoundary_line (s : State) (p : Plan) (heard : Bool) (n : Nat) :
    (s.blocksBoundary p heard n).line = { s.line with cycleMarkReq := s.line.cycleMarkReq ||
      ((s.cycleSteps p heard).1.set && (s.cycleSteps p heard).1.position + 1 == p.cOf (s.cycleSteps p heard).1.active) } := by
  have hr : ∀ u : State, u.cycle = s.cycle → u.peers = s.peers → u.line = s.line →
      (u.cycleBoundary p heard).line = { s.line with cycleMarkReq := s.line.cycleMarkReq ||
        ((s.cycleSteps p heard).1.set && (s.cycleSteps p heard).1.position + 1 == p.cOf (s.cycleSteps p heard).1.active) } :=
    fun u h1 h2 h3 => by rw [u.cycleBoundary_line, State.cycleSteps_congr p heard h1 h2, h3]
  have b := s.remoteBoundary_law
  have c := s.claimsBoundary_law p
  unfold State.blocksBoundary
  split
  · rw [State.claimsBoundary_line, State.remoteBoundary_line, s.cycleBoundary_line]
  · rw [State.remoteBoundary_line, State.claimsBoundary_line, s.cycleBoundary_line]
  · rw [State.claimsBoundary_line]
    exact hr _ b.2.1 b.1.peers s.remoteBoundary_line
  · have d := s.remoteBoundary.claimsBoundary_law p
    exact hr _ (d.2.1.trans b.2.1) (b.1.trans d.1).peers (by rw [State.claimsBoundary_line, State.remoteBoundary_line])
  · rw [State.remoteBoundary_line]
    exact hr _ c.2.1 c.1.peers (s.claimsBoundary_line p)
  · have d := (s.claimsBoundary p).remoteBoundary_law
    exact hr _ (d.2.1.trans c.2.1) (c.1.trans d.1).peers (by rw [State.remoteBoundary_line, State.claimsBoundary_line])

theorem State.blocksBoundary_mem (s : State) (p : Plan) (heard : Bool) (n : Nat) :
    s.blocksBoundary p heard n ∈ s.blockOrders p heard := by
  unfold State.blocksBoundary State.blockOrders
  split <;> simp

/-- The occupancy and fault of a detector are the same in states that agree on the plan and the detectors. -/
theorem State.occupied_congr {s t : State} (d : LocalId) (h1 : t.plan = s.plan) (h2 : t.dets = s.dets) :
    t.occupied d = s.occupied d ∧ t.faulted d = s.faulted d := by
  unfold State.occupied State.faulted State.localDef
  rw [h1, h2]
  exact ⟨rfl, rfl⟩

theorem State.bounds.dets {s t : State} (h : s.bounds t) : t.dets = s.dets := h.2.2.2.2.2.2.2.2.2.1

/-- The blocks of a plan at a boundary: without a plan nothing changes. -/
theorem State.planBoundary_law (s : State) (heard : Bool) :
    s.bounds (s.planBoundary heard) ∧ (s.plan = none → s.planBoundary heard = s) ∧
    ∀ p, s.plan = some p →
      (s.planBoundary heard).line = { s.line with cycleMarkReq := s.line.cycleMarkReq ||
        ((s.cycleSteps p heard).1.set &&
          (s.cycleSteps p heard).1.position + 1 == p.cOf (s.cycleSteps p heard).1.active) } ∧
      (∃ w ∈ State.blockOrders { s with freeCount := s.freeCount + 1 } p heard,
        s.planBoundary heard = { w with latched := (s.planBoundary heard).latched }) ∧
      (s.planBoundary heard).cycle = (s.cycleSteps p heard).1 ∧
      (∀ r, (s.planBoundary heard).remotes.nth r = s.remoteValue r) ∧
      ∀ d, BitSet.has (s.planBoundary heard).latched.occupancy d = s.occupied d ∧
        BitSet.has (s.planBoundary heard).latched.faults d = s.faulted d := by
  cases hp : s.plan with
  | none =>
    have h : s.planBoundary heard = s := by unfold State.planBoundary; rw [hp]
    exact ⟨h.symm ▸ s.bounds_refl, fun _ => h, fun p h => by cases h⟩
  | some p =>
    have hs : (s.draw 6).2 = { s with freeCount := s.freeCount + 1 } := rfl
    have hd := (s.draw_follows 6).bounds
    have h : s.planBoundary heard =
        { (s.draw 6).2.blocksBoundary p heard (s.draw 6).1 with
          latched := ((s.draw 6).2.blocksBoundary p heard (s.draw 6).1).latchNow } := by
      unfold State.planBoundary; rw [hp]
    generalize (s.draw 6).1 = n at h
    generalize (s.draw 6).2 = u at *
    have hb := State.blocksBoundary_law u p heard n
    have hl := State.blocksBoundary_line u p heard n
    have hm := State.blocksBoundary_mem u p heard n
    have hc : u.cycleSteps p heard = s.cycleSteps p heard :=
      State.cycleSteps_congr p heard (by rw [hs]) (by rw [hs])
    have hr : ∀ r, u.remoteValue r = s.remoteValue r :=
      fun r => State.remoteValue_congr r (by rw [hs]) (by rw [hs])
    have hul : u.line = s.line := by rw [hs]
    rw [hc, hul] at hl
    rw [hc] at hb
    have hm2 : u.blocksBoundary p heard n ∈ State.blockOrders { s with freeCount := s.freeCount + 1 } p heard :=
      hs ▸ hm
    have hall := hd.trans hb.1
    rw [h]
    generalize u.blocksBoundary p heard n = b at *
    refine ⟨hall, (fun h => by cases h), fun q hq => ?_⟩
    cases hq
    refine ⟨?_, ⟨b, ?_, ?_⟩, ?_, fun r => ?_, fun d => ?_⟩
    · exact hl
    · rw [hp] at hm2
      exact hm2
    · rfl
    · exact hb.2.1
    · exact (hb.2.2.1 r).trans (hr r)
    have hx := State.occupied_congr d hall.plan hall.dets
    exact ⟨(BitSet.has_bitsOf _ d).trans hx.1, (BitSet.has_bitsOf _ d).trans hx.2⟩

/-! ### The whole boundary -/

/-- The flash generator at a boundary leaves everything but the lamps' phase, count, outputs and timings. -/
theorem State.flashBoundary_law (s : State) :
    s.flashBoundary = { s with lamps := s.flashBoundary.lamps } ∧
      s.flashBoundary.lamps.flashCount = (if s.lamps.flashCount + 1 = 5 then 0 else s.lamps.flashCount + 1) ∧
      s.flashBoundary.lamps.phase = (if s.lamps.flashCount + 1 = 5 then !s.lamps.phase else s.lamps.phase) ∧
      s.flashBoundary.lamps.conflict = s.lamps.conflict ∧ s.flashBoundary.lamps.redOut = s.lamps.redOut := by
  unfold State.flashBoundary
  by_cases h : s.lamps.flashCount + 1 = flashHalf
  · rw [if_pos h, if_pos (show s.lamps.flashCount + 1 = 5 from h), if_pos (show s.lamps.flashCount + 1 = 5 from h)]
    exact ⟨rfl, rfl, rfl, rfl, rfl⟩
  · rw [if_neg h, if_neg (show ¬ s.lamps.flashCount + 1 = 5 from h), if_neg (show ¬ s.lamps.flashCount + 1 = 5 from h)]
    exact ⟨rfl, rfl, rfl, rfl, rfl⟩

/-- What the line interface holds after its own part of a boundary. -/
theorem Line.countTransmission_law (l : Line) :
    l.countTransmission.frameTimer = l.frameTimer ∧ l.countTransmission.pending = l.pending ∧
      (l.sending = none → l.countTransmission.sending = none) ∧ l.countTransmission.txEnd = none ∧
      l.countTransmission.outcomes = l.outcomes ∧ l.countTransmission.snapshot = l.snapshot ∧
      l.countTransmission.malformed = l.malformed ∧ l.countTransmission.slips = l.slips ∧
      l.countTransmission.run = l.run ∧ l.countTransmission.recessive = l.recessive := by
  unfold Line.countTransmission Line.toSilentFault Line.silence
  dsimp only
  split
  · exact ⟨rfl, rfl, id, rfl, rfl, rfl, rfl, rfl, rfl, rfl⟩
  · exact ⟨rfl, rfl, id, rfl, rfl, rfl, rfl, rfl, rfl, rfl⟩
  · exact ⟨rfl, rfl, id, rfl, rfl, rfl, rfl, rfl, rfl, rfl⟩
  · exact ⟨rfl, rfl, id, rfl, rfl, rfl, rfl, rfl, rfl, rfl⟩
  · split
    · exact ⟨rfl, rfl, id, rfl, rfl, rfl, rfl, rfl, rfl, rfl⟩
    · split <;> exact ⟨rfl, rfl, fun _ => rfl, rfl, rfl, rfl, rfl, rfl, rfl, rfl⟩

theorem Line.countBoundary_law (l : Line) :
    l.countBoundary = { l with
      sfHold := l.countBoundary.sfHold, sfKind := l.countBoundary.sfKind, st := l.countBoundary.st
      listenCount := l.countBoundary.listenCount } := by
  unfold Line.countBoundary Line.countHold Line.countListen Line.holdOver
  split
  · split <;> rfl
  · split
    · split <;> rfl
    · rfl

theorem Line.boundary_law (l : Line) (age : Nat) :
    (l.boundary age).frameTimer = some age ∧ (l.boundary age).pending = none ∧ (l.boundary age).sending = none ∧
      (l.boundary age).txEnd = none ∧ (∀ k, (l.boundary age).outcomes.nth k = none) ∧
      (l.boundary age).malformed = l.malformed ∧ (l.boundary age).slips = l.slips ∧
      (l.boundary age).run = l.run ∧ (l.boundary age).recessive = l.recessive := by
  have h1 := Line.countBoundary_law { l with
    frameTimer := some age, pending := none, cycleMarkReq := l.cycleMarkReq && l.pending.isNone
    sending := none, outcomes := .tab fun _ => none }
  have h2 := Line.countTransmission_law (Line.countBoundary { l with
    frameTimer := some age, pending := none, cycleMarkReq := l.cycleMarkReq && l.pending.isNone
    sending := none, outcomes := .tab fun _ => none })
  rw [h1] at h2
  obtain ⟨a, b, c, d, e, _, f, g, i, j⟩ := h2
  unfold Line.boundary
  rw [h1]
  exact ⟨a, b, c rfl, d, fun k => by rw [e]; exact Table.nth_tab _ k, f, g, i, j⟩

/-- The request that an expiry has read ends with its boundary (R10). -/
theorem Line.boundary_request (l : Line) (age : Nat) :
    (l.boundary age).cycleMarkReq = (l.cycleMarkReq && l.pending.isNone) := by
  have h : ∀ m : Line, m.countTransmission.cycleMarkReq = m.cycleMarkReq := by
    intro m
    unfold Line.countTransmission Line.toSilentFault Line.silence
    dsimp only
    split
    · rfl
    · rfl
    · rfl
    · rfl
    · split
      · rfl
      · split <;> rfl
  unfold Line.boundary
  rw [h, Line.countBoundary_law]

theorem State.snapshotNow_takeSnapshot (s : State) : s.takeSnapshot.snapshotNow = s.snapshotNow := rfl

/-- The peer table at a boundary: one evaluation of each entry, none in OFF (R17, R29). -/
theorem State.handOutcomes_law (s : State) (o : StationId → Outcome) :
    s.handOutcomes o = { s with peers := (s.handOutcomes o).peers } ∧
    ∀ k, (s.handOutcomes o).peers.nth k =
      if s.line.st = .off then s.peers.nth k else (s.peers.nth k).evaluate s.fingerprint (o k) := by
  unfold State.handOutcomes
  by_cases h : s.line.st = .off
  · rw [if_pos h]
    exact ⟨rfl, fun k => by rw [if_pos h]⟩
  · rw [if_neg h]
    exact ⟨rfl, fun k => by rw [if_neg h]; exact Table.nth_tab _ k⟩

/-- The state of a boundary as the plan's blocks find it. -/
def State.atBoundary (s : State) (age : Nat) (o : StationId → Outcome) : State :=
  State.flashBoundary
    { s.handOutcomes o with line := (s.handOutcomes o).line.boundary age, act := !(s.handOutcomes o).act }

theorem State.frameBoundary_eq (s : State) (heard : Bool) (age : Nat) (o : StationId → Outcome) :
    s.frameBoundary heard age o = ((s.atBoundary age o).planBoundary heard).takeSnapshot := rfl

theorem State.atBoundary_law (s : State) (age : Nat) (o : StationId → Outcome) :
    s.atBoundary age o = { s with
      peers := (s.handOutcomes o).peers, line := s.line.boundary age, act := !s.act
      lamps := (s.atBoundary age o).lamps } ∧
      (s.atBoundary age o).lamps.flashCount =
        (if s.lamps.flashCount + 1 = 5 then 0 else s.lamps.flashCount + 1) ∧
      (s.atBoundary age o).lamps.phase = (if s.lamps.flashCount + 1 = 5 then !s.lamps.phase else s.lamps.phase) ∧
      (s.atBoundary age o).lamps.conflict = s.lamps.conflict ∧
      (s.atBoundary age o).lamps.redOut = s.lamps.redOut := by
  have hf := State.flashBoundary_law
    { s.handOutcomes o with line := (s.handOutcomes o).line.boundary age, act := !(s.handOutcomes o).act }
  have hl := (s.handOutcomes_law o).1
  rw [show ({ s.handOutcomes o with
      line := (s.handOutcomes o).line.boundary age, act := !(s.handOutcomes o).act } : State) =
    { s with peers := (s.handOutcomes o).peers, line := s.line.boundary age, act := !s.act } from by
      rw [hl]] at hf
  have he : s.atBoundary age o = State.flashBoundary
      { s with peers := (s.handOutcomes o).peers, line := s.line.boundary age, act := !s.act } := by
    unfold State.atBoundary; rw [hl]
  rw [he]
  exact hf

/-- The line record of a boundary's result, but for what the plan's blocks decide in it. -/
theorem State.frameBoundary_line (s : State) (heard : Bool) (age : Nat) (o : StationId → Outcome) :
    ∃ q x, (s.frameBoundary heard age o).line = { s.line.boundary age with cycleMarkReq := q, snapshot := x } := by
  obtain ⟨q, hq⟩ := (State.planBoundary_law (s.atBoundary age o) heard).1.2.2.2.2.2.2.1
  rw [(s.atBoundary_law age o).1] at hq
  refine ⟨q, (((s.atBoundary age o).planBoundary heard)).snapshotNow, ?_⟩
  rw [s.frameBoundary_eq, (s.atBoundary_law age o).1]
  unfold State.takeSnapshot
  dsimp only
  rw [hq]

/-- A count of free choices beside the flash generator. -/
theorem State.flashBoundary_free (s : State) (n : Nat) :
    { s.flashBoundary with freeCount := n } = State.flashBoundary { s with freeCount := n } := by
  unfold State.flashBoundary
  dsimp only
  split <;> rfl

/-- A frame boundary taken with the line record `l` does to every block what `boundaryTaken` says (R9). -/
theorem State.frameBoundary_taken (s : State) (l : Line) (heard : Bool) (age : Nat) (o : StationId → Outcome) :
    s.boundaryTaken (State.frameBoundary { s with line := l } heard age o) l heard age o := by
  generalize hz : ({ s with line := l } : State) = z
  have hzl : z.line = l := by rw [← hz]
  have hp := State.planBoundary_law (z.atBoundary age o) heard
  have ha := z.atBoundary_law age o
  have ho := (z.handOutcomes_law o).2
  have hb := Line.boundary_law z.line age
  have hfl : z.atBoundary age o = State.flashBoundary
      { z with peers := (z.handOutcomes o).peers, line := z.line.boundary age, act := !z.act } := by
    unfold State.atBoundary; rw [(z.handOutcomes_law o).1]
  obtain ⟨q, x, hline⟩ := z.frameBoundary_line heard age o
  have he := z.frameBoundary_eq heard age o
  generalize hv : (z.atBoundary age o).planBoundary heard = v at *
  generalize hu : z.atBoundary age o = u at *
  generalize hw : z.frameBoundary heard age o = w at *
  obtain ⟨⟨p0, p1, p2, p3, p4, p5, ⟨r, p6⟩, p7, p8, p9, p10, p11, p12, p13, p14, p15, p16, p17, p18, p19⟩, hnone, hsome⟩ := hp
  obtain ⟨a0, a1, a2, a3, a4⟩ := ha
  have hwv : w = { v with line := { v.line with snapshot := v.snapshotNow } } := he
  have hplan : u.plan = z.plan := by rw [a0]
  have hpeers : w.peers = (z.handOutcomes o).peers := by
    have : w.peers = v.peers := by rw [hwv]
    rw [this, p7, a0]
  have hwp : w.plan = z.plan := by rw [hwv]; exact p5.trans hplan
  have hcyc : ∀ p, z.plan = some p → w.cycle = (State.cycleSteps { z with peers := w.peers } p heard).1 := by
    intro p hs
    have : w.cycle = v.cycle := by rw [hwv]
    rw [this, (hsome p (hplan.trans hs)).2.2.1]
    refine congrArg Prod.fst (State.cycleSteps_congr p heard ?_ ?_)
    · rw [a0]
    · rw [hpeers, a0]
  subst hz
  refine ⟨?_, ?_, ?_, ?_, ?_, ?_, ?_, ?_, ?_, ?_, ?_, ?_, ?_, ?_, ?_, ?_, ?_, ?_, ?_, ?_, ?_, ?_, ?_⟩
  · have hx : w.line.snapshot = w.snapshotNow := by rw [hwv]; rfl
    rw [← hx, hline]
  · cases hs : s.plan with
    | none =>
      have : w.line.cycleMarkReq = u.line.cycleMarkReq := by rw [hwv, hnone (hplan.trans hs)]
      rw [this, a0]
      exact (Line.boundary_request _ age).trans (Bool.or_false _).symm
    | some p =>
      have hc := hcyc p hs
      have hl := (hsome p (hplan.trans hs)).1
      have : w.line.cycleMarkReq = v.line.cycleMarkReq := by rw [hwv]
      have hsteps : u.cycleSteps p heard = State.cycleSteps { s with peers := w.peers } p heard :=
        State.cycleSteps_congr p heard (by rw [a0]) (by rw [hpeers, a0])
      rw [this, hl, hsteps]
      dsimp only
      rw [show (State.cycleSteps { s with peers := w.peers } p heard).1 = w.cycle from hc.symm, a0]
      show ((Line.boundary age _).cycleMarkReq || _) = _
      rw [Line.boundary_request]
      rfl
  · rw [hline]; exact hb.1
  · rw [hline]; exact hb.2.1
  · rw [hline]; exact hb.2.2.1
  · rw [hline]; exact hb.2.2.2.1
  · intro k; rw [hline]; exact hb.2.2.2.2.1 k
  · rw [hwv]; show v.act = _; rw [p8, a0]
  · rw [hwv]; show v.lamps.flashCount = _; rw [p17, a1]
  · rw [hwv]; show v.lamps.phase = _; rw [p16, a2]
  · intro k; rw [hpeers]; exact ho k
  · intro hn
    have hvu := hnone (hplan.trans hn)
    rw [hwv, hvu, a0]
  · intro p hs
    obtain ⟨_, ⟨y, hy, hyv⟩, c1, c2, c3⟩ := hsome p (hplan.trans hs)
    refine ⟨hcyc p hs, ?_, ?_, ?_⟩
    · intro r
      have : w.remotes = v.remotes := by rw [hwv]
      rw [this, c2 r]
      refine State.remoteValue_congr r ?_ ?_
      · rw [a0]
      · rw [hpeers, a0]
    · intro d
      have : w.latched = v.latched := by rw [hwv]
      rw [this]
      have hc := State.occupied_congr (s := s) (t := u) d (by rw [a0]) (by rw [a0])
      exact ⟨(c3 d).1.trans hc.1, (c3 d).2.trans hc.2⟩
    · refine ⟨y, ?_, ?_⟩
      · have hfree : ({ u with freeCount := u.freeCount + 1 } : State) = State.flashBoundary
            { s with peers := w.peers, line := Line.boundary age l, act := !s.act, freeCount := s.freeCount + 1 } := by
          have : u.freeCount = s.freeCount := by rw [a0]
          rw [this, hfl, State.flashBoundary_free, hpeers]
        rw [← hfree]
        exact hy
      · rw [hwv, hyv]
  · rw [hwv]; show v.pending = _; rw [p0, a0]
  · rw [hwv]; show v.supplyOk = _; rw [p1, a0]
  · rw [hwv]; show v.resetPin = _; rw [p2, a0]
  · rw [hwv]; show v.panel = _; rw [p3, a0]
  · rw [hwv]; show v.planRead = _; rw [p4, a0]
  · rw [hwv]; show v.plan = _; rw [p5, a0]
  · rw [hwv]; show v.dets = _; rw [p9, a0]
  · rw [hwv]; show v.diag = _; rw [p10, a0]
  · rw [hwv]; show v.lamps.conflict = _; rw [p14, a3]
  · rw [hwv]; show v.lamps.redOut = _; rw [p15, a4]

end Sys2Proof.Machine
end

