-- ==== Sys2Proof/Laws/Calls.lean ====
section
/-! SUPPORT. Laws/Calls.lean: occupancy, fault, calls and extension, each as its rule states it (R112 to R123). -/

namespace Sys2Proof.Machine

/-- A local detector is occupied by its filtered level, or in mode PULSE while its 0.5 s run (R112). -/
theorem State.occupied_iff (s : State) (d : LocalId) :
    s.occupied d = true ↔ ∃ f, s.localDef d = some f ∧
      ((f.mode = .pulse ∧ (s.dets.nth d).pulse ≠ none) ∨ (f.mode ≠ .pulse ∧ (s.dets.nth d).level = true)) := by
  unfold State.occupied
  cases s.localDef d with
  | none => simp
  | some f => cases hm : f.mode <;> simp [hm, Option.isSome_iff_ne_none]

/-- A local detector is in fault outside NORMAL (R121). -/
theorem State.faulted_iff (s : State) (d : LocalId) :
    s.faulted d = true ↔ s.localDef d ≠ none ∧ (s.dets.nth d).fault ≠ .normal := by
  unfold State.faulted
  simp [Option.isSome_iff_ne_none]

/-- The locking calls that last, by mode (R115). -/
theorem State.callsLocking_iff (s : State) (d : LocalId) (g : GroupId) :
    s.callsLocking d g = true ↔ ∃ f, s.localDef d = some f ∧ BitSet.has f.calls g = true ∧
      ((f.mode = .presence ∧ f.locking = true ∧ (s.occupied d = true ∨ s.faulted d = true)) ∨
        (f.mode = .pulse ∧ (s.occupied d = true ∨ s.faulted d = true)) ∨
        (f.mode = .button ∧ s.faulted d = true)) := by
  unfold State.callsLocking State.occupiedOrFaulted
  cases s.localDef d with
  | none => simp
  | some f => cases hm : f.mode <;> simp [hm]

/-- Non-locking calls are those of PRESENCE detectors without the locking flag (R116). -/
theorem State.callsNonLocking_iff (s : State) (d : LocalId) (g : GroupId) :
    s.callsNonLocking d g = true ↔ ∃ f, s.localDef d = some f ∧ f.mode = .presence ∧ f.locking = false ∧
      BitSet.has f.calls g = true ∧ (s.occupied d = true ∨ s.faulted d = true) := by
  unfold State.callsNonLocking State.occupiedOrFaulted
  cases s.localDef d with
  | none => simp
  | some f => cases hm : f.mode <;> simp [hm, and_assoc, and_left_comm (a := BitSet.has f.calls g = true)]

/-- A remote detector is on while it is occupied or REMOTE_LOST (R123, R124). -/
theorem State.remoteOn_iff (s : State) (r : RemoteId) :
    s.remoteOn r = true ↔ s.remoteDef r ≠ none ∧ (s.remotes.nth r = .normal true ∨ s.remotes.nth r = .lost) := by
  unfold State.remoteOn
  cases h : s.remotes.nth r <;> simp [Option.isSome_iff_ne_none]

/-- A set of locking callers is empty where no detector is a member (R114). -/
theorem State.lockingCall_iff (s : State) (g : GroupId) :
    s.lockingCall g = true ↔ ∃ d, BitSet.has (s.callers.nth g) d = true := by
  unfold State.lockingCall BitSet.has
  rw [Bool.not_eq_true', beq_eq_false_iff_ne]
  constructor
  · intro h
    refine Classical.byContradiction fun hn => h (BitVec.eq_of_getLsbD_eq fun i hi => ?_)
    cases hb : (s.callers.nth g).getLsbD i with
    | false => simp
    | true => exact absurd ⟨⟨i, hi⟩, hb⟩ hn
  · rintro ⟨d, h⟩ e
    rw [e] at h
    simp at h

/-- A group has a call (R116). -/
theorem State.hasCall_iff (s : State) (g : GroupId) :
    s.hasCall g = true ↔ (∃ d, BitSet.has (s.callers.nth g) d = true) ∨
      (∃ d f, s.localDef d = some f ∧ f.mode = .presence ∧ f.locking = false ∧ BitSet.has f.calls g = true ∧
        (s.occupied d = true ∨ s.faulted d = true)) ∨
      (∃ r f, s.remoteDef r = some f ∧ BitSet.has f.calls g = true ∧ s.remoteOn r = true) ∨
      (s.groupPlan g).recallFlag = true := by
  unfold State.hasCall State.remoteCall
  simp only [Bool.or_eq_true, anyFin_iff, State.lockingCall_iff, State.callsNonLocking_iff, Bool.and_eq_true,
    Option.any_eq_true, or_assoc, ← exists_and_right, and_assoc]

/-- A group's extension input is occupied (R118). -/
theorem State.extended_iff (s : State) (g : GroupId) :
    s.extended g = true ↔
      (∃ d f, s.localDef d = some f ∧ BitSet.has f.extends_ g = true ∧ (s.occupied d = true ∨ s.faulted d = true)) ∨
      ∃ r f, s.remoteDef r = some f ∧ BitSet.has f.extends_ g = true ∧ s.remoteOn r = true := by
  unfold State.extended State.occupiedOrFaulted
  simp only [Bool.or_eq_true, anyFin_iff, Bool.and_eq_true, Option.any_eq_true,
    ← exists_and_right, and_assoc]

/-- A group keeps a gap timer where it is VEHICLE and stands in an extend list (R68, R71). -/
theorem State.gapTimed_iff (s : State) (g : GroupId) :
    s.gapTimed g = true ↔ (s.groupPlan g).kind = .vehicle ∧
      ((∃ d f, s.localDef d = some f ∧ BitSet.has f.extends_ g = true) ∨
        ∃ r f, s.remoteDef r = some f ∧ BitSet.has f.extends_ g = true) := by
  unfold State.gapTimed State.hasExtender
  simp only [Bool.and_eq_true, Bool.or_eq_true, anyFin_iff, Option.any_eq_true, beq_iff_eq]

/-- Some group in conflict has a call (R73). -/
theorem State.conflictingCall_iff (s : State) (g : GroupId) :
    s.conflictingCall g = true ↔ ∃ h, s.conflicts g h = true ∧ s.hasCall h = true := by
  unfold State.conflictingCall
  simp only [anyFin_iff, Bool.and_eq_true]

/-- No group is moving where none is in PREPARE or CLEARING (R80). -/
theorem State.movingCount_eq_zero (s : State) :
    s.movingCount = 0 ↔ ∀ h, (s.groups.nth h).state ≠ .prepare ∧ (s.groups.nth h).state ≠ .clearing := by
  unfold State.movingCount countFin
  rw [List.countP_eq_zero]
  constructor
  · intro h g
    have := h g (List.mem_finRange g)
    constructor <;> intro e <;> simp [e, GState.moving] at this
  · intro h g _
    have := h g
    cases e : (s.groups.nth g).state <;> simp_all [GState.moving]

end Sys2Proof.Machine
end

