-- ==== Sys2Proof/Laws/Clock.lean ====
section
/-! SUPPORT. Laws/Clock.lean: what an empty queue does, and the three ways a step can go. -/

namespace Sys2Proof.Machine

/-- No event is due: one tick passes (log 1). -/
theorem State.idle_none {s : State} (h : s.dueEvents = []) : s.idle = s.tick := by
  unfold State.idle
  rw [h]

/-- Some events are due: one of them is queued (log 3). -/
theorem State.idle_some {s : State} (h : s.dueEvents ≠ []) :
    ∃ e ∈ s.dueEvents, ∃ n, s.idle = { s with pending := [e], freeCount := n } := by
  unfold State.idle
  generalize s.dueEvents = l at h ⊢
  match l with
  | [] => contradiction
  | [e] => exact ⟨e, by simp, s.freeCount, rfl⟩
  | e :: f :: l =>
    refine ⟨(e :: f :: l).getD (s.draw ((f :: l).length + 1)).1 e, ?_, s.freeCount + 1, rfl⟩
    rw [List.getD_eq_getElem?_getD]
    cases h3 : (e :: f :: l)[(s.draw ((f :: l).length + 1)).1]? with
    | none => simp
    | some x =>
      simp only [Option.getD_some]
      exact List.mem_of_getElem? h3

/-- An idle step is a tick, or queues an event and changes nothing else but the count of free choices. -/
theorem State.idle_cases (s : State) :
    s.idle = s.tick ∨ ∃ e n, s.idle = { s with pending := [e], freeCount := n } := by
  by_cases h : s.dueEvents = []
  · exact Or.inl (State.idle_none h)
  · obtain ⟨e, _, n, hn⟩ := State.idle_some h
    exact Or.inr ⟨e, n, hn⟩

/-- A property of states is kept by every step where the queue and the count of free choices do not matter to
it, a tick keeps it, and every command keeps it. -/
theorem step_keeps {P : State → Prop} (hq : ∀ (s : State) (l : List Instr) (n : Nat), P s →
      P { s with pending := l, freeCount := n })
    (ht : ∀ s, P s → P s.tick) (hc : ∀ c s t, exec c s = .next t → P s → P t)
    {s t : State} (h : P s) (hs : step s = .next t) : P t := by
  unfold step at hs
  split at hs
  · have e : s.idle = t := by injection hs
    rw [← e]
    rcases s.idle_cases with h1 | ⟨a, n, h1⟩
    · rw [h1]
      exact ht s h
    · rw [h1]
      exact hq s _ _ h
  · rename_i c rest _
    exact hc c _ t hs (hq s rest s.freeCount h)

end Sys2Proof.Machine
end

