-- ==== Sys2Proof/Laws/Diag.lean ====
section
/-! SUPPORT. Laws/Diag.lean: what the diagnostic receiver does with the levels it samples (R195, R198). -/

namespace Sys2Proof.Machine

/-- Whatever the levels, only the port changes. -/
theorem State.receiveRow_diag (s : State) (row : RxChar → Bool) (levels : BitVec 10) :
    ∃ d, s.receiveRow row levels = { s with diag := d } := by
  unfold State.receiveRow State.receive State.reply
  repeat' split
  all_goals exact ⟨_, rfl⟩

/-- The three ways in which a character is judged. -/
theorem rxCharacter_cases (levels : BitVec 10) :
    (levels.getLsbD 0 = true → rxCharacter levels = .noise) ∧
    (levels.getLsbD 0 = false → levels.getLsbD 9 = false → rxCharacter levels = .framingError) ∧
    (levels.getLsbD 0 = false → levels.getLsbD 9 = true → rxCharacter levels = .char (levels.extractLsb' 1 8)) := by
  unfold rxCharacter
  exact ⟨fun h => if_pos h, fun h k => by rw [h, k]; rfl, fun h k => by rw [h, k]; rfl⟩

/-- The receiver reads back every character that stands on the line. -/
theorem rxCharacter_lineLevels (char : Byte) : rxCharacter (lineLevels char) = .char char := by
  revert char
  decide +kernel

/-- The receiver alone discards noise and a framing error, and ignores a character while the port is busy. -/
theorem State.receive_nothing (s : State) (levels : BitVec 10)
    (h : rxCharacter levels = .noise ∨ rxCharacter levels = .framingError ∨ s.portIdle = false) :
    s.receive levels = s := by
  unfold State.receive State.reply
  split
  · rfl
  · rfl
  · rename_i c hc
    rcases h with h | h | h
    · rw [h] at hc; cases hc
    · rw [h] at hc; cases hc
    · simp [h]

/-- A character of its own row that stands whole on the line and ends while the port is idle is answered. -/
theorem State.receiveRow_taken (s : State) (row : RxChar → Bool) (levels : BitVec 10) (c : Byte)
    (h0 : levels.getLsbD 0 = false) (h9 : levels.getLsbD 9 = true) (hc : levels.extractLsb' 1 8 = c) (hr : row (.char c) = true)
    (hm : s.ctrl.mode ≠ .dark) (hd : s.diag = none) :
    s.receiveRow row levels =
      { s with diag := some { chars := replyOf (s.reportOf c).1 (s.reportOf c).2, elapsed := 0 } } := by
  unfold State.receiveRow
  rw [(rxCharacter_cases levels).2.2 h0 h9, hc, if_pos hr]
  unfold State.receive
  rw [(rxCharacter_cases levels).2.2 h0 h9, hc]
  dsimp only
  unfold State.reply
  rw [if_pos (by unfold State.portIdle; simp [hm, hd])]

/-- Noise, a framing error, a character that is not of the row, and one that ends while the port is busy or in start-up
reset change nothing. -/
theorem State.receiveRow_nothing (s : State) (row : RxChar → Bool) (levels : BitVec 10)
    (h : levels.getLsbD 0 = true ∨ levels.getLsbD 9 = false ∨ row (.char (levels.extractLsb' 1 8)) = false ∨
      s.ctrl.mode = .dark ∨ s.diag ≠ none) : s.receiveRow row levels = s := by
  unfold State.receiveRow
  split
  · rename_i hr
    have hp : s.ctrl.mode = .dark ∨ s.diag ≠ none → s.portIdle = false := by
      intro h
      unfold State.portIdle
      rcases h with h | h
      · simp [h]
      · cases hd : s.diag with
        | none => exact absurd hd h
        | some r => simp
    cases h0 : levels.getLsbD 0 with
    | true => exact s.receive_nothing _ (.inl ((rxCharacter_cases levels).1 h0))
    | false =>
      cases h9 : levels.getLsbD 9 with
      | false => exact s.receive_nothing _ (.inr (.inl ((rxCharacter_cases levels).2.1 h0 h9)))
      | true =>
        rw [(rxCharacter_cases levels).2.2 h0 h9] at hr
        rcases h with h | h | h | h
        · rw [h0] at h; cases h
        · rw [h9] at h; cases h
        · rw [hr] at h; cases h
        · exact s.receive_nothing _ (.inr (.inr (hp h)))
  · rfl

end Sys2Proof.Machine
end

