-- ==== Sys2Proof/Laws/Line.lean ====
section
/-! SUPPORT. Laws/Line.lean: what a run does to the line record, and the line commands as equations. -/

namespace Sys2Proof.Machine

/-- The classes of R3 by length. -/
theorem runClass_iff (n : Nat) :
    (runClass n = .short ↔ n ≤ 23) ∧ (runClass n = .frameMark ↔ 24 ≤ n ∧ n ≤ 48) ∧
    (runClass n = .malformed ↔ (49 ≤ n ∧ n ≤ 79) ∨ (113 ≤ n ∧ n ≤ 200)) ∧
    (runClass n = .cycleMark ↔ 80 ≤ n ∧ n ≤ 112) ∧ (runClass n = .stuck ↔ 200 < n) := by
  unfold runClass
  refine ⟨?_, ?_, ?_, ?_, ?_⟩ <;>
  · split
    · simp; try omega
    · split
      · simp; try omega
      · split
        · simp; try omega
        · split
          · simp; try omega
          · split <;> simp <;> omega

/-- The line record once a run of `len` bit times that is not stuck has ended (R3, R12). -/
def Line.afterRun (len : Nat) (l : Line) : Line :=
  { l with
    malformed := if runClass len = .malformed then l.malformed + 1 else l.malformed
    slips := if l.inRecord = true ∧ 24 ≤ len then l.slips + 1 else l.slips
    sending := if 24 ≤ len then none else l.sending
    txEnd := if l.inRecord = true ∧ 24 ≤ len then some .slip else l.txEnd }

theorem Line.afterRun_eq (len : Nat) (l : Line) :
    Line.countMalformed (runClass len) (if runClass len = .short then l else l.slip) = l.afterRun len := by
  have h := (runClass_iff len).1
  unfold Line.countMalformed Line.afterRun
  by_cases hs : 24 ≤ len
  · rw [if_neg (show ¬ runClass len = .short by rw [h]; omega)]
    unfold Line.slip
    by_cases hl : l.inRecord = true
    · simp only [hl, hs, and_self, if_true]
      split <;> rfl
    · have hn : l.sending = none := by unfold Line.inRecord at hl; cases k : l.sending <;> simp_all
      simp only [hl, hs, if_true, false_and]
      cases l
      dsimp only at hn
      subst hn
      split <;> rfl
  · have hn : ¬ (l.inRecord = true ∧ 24 ≤ len) := fun k => hs k.2
    rw [if_pos (show runClass len = .short by rw [h]; omega), if_neg hn, if_neg hn, if_neg hs]
    split <;> rfl

theorem State.runEnd_eq (s : State) (len : Nat) (edge : Bool) : s.runEnd len edge =
    if runClass len = .stuck then s
    else if s.line.resolves len then
      State.frameBoundary { s with line := s.line.afterRun len } (runClass len == .cycleMark) len s.judgedOutcome
    else if (runClass len).valid then
      State.frameBoundary { s with line := s.line.afterRun len } (runClass len == .cycleMark) len
        (s.cutOutcome (s.line.frameTimer.getD 0 - len) edge)
    else { s with line := s.line.afterRun len } := by
  have hr : (if runClass len = .short then s.line else s.line.slip).resolves len = s.line.resolves len := by
    split
    · rfl
    · unfold Line.slip; split <;> rfl
  have h : ∀ l : Line, Line.countMalformed (runClass len) (if runClass len = .short then s.line else s.line.slip) = l →
      s.runEnd len edge =
    if runClass len = .stuck then s
    else if (if runClass len = .short then s.line else s.line.slip).resolves len then
      State.frameBoundary { s with line := l } (runClass len == .cycleMark) len
        (State.judgedOutcome { s with line := l })
    else if (runClass len).valid then
      State.frameBoundary { s with line := l } (runClass len == .cycleMark) len
        (State.cutOutcome { s with line := l } (l.frameTimer.getD 0 - len) edge)
    else { s with line := l } := by
    intro l hl; subst hl; rfl
  rw [h _ (Line.afterRun_eq len s.line), hr]
  rfl

/-- A run end, whether or not the device drives (R1, R3). -/
theorem State.dominantRunEnd_eq (s : State) (len : Nat) (edge : Bool) : s.dominantRunEnd len edge =
      if s.line.st.receiving then
        State.runEnd { s with line := { s.line with run := none, recessive := 0 } } len edge
      else { s with line := { s.line with run := none, recessive := 0 } } := rfl

theorem Line.slip_keep (l : Line) :
    l.slip = { l with sending := l.slip.sending, txEnd := l.slip.txEnd, slips := l.slip.slips } := by
  unfold Line.slip; split <;> rfl

/-- The line record as the line becomes STUCK (R12, R19). -/
def Line.becomeStuck (run : Nat) (l : Line) : Line :=
  { l with
    markDrive := none, sending := none, txEnd := l.slip.txEnd, slips := l.slip.slips
    st := .stuck, run := some run, recessive := 0 }

theorem Line.becomeStuck_eq (run : Nat) (l : Line) :
    { l.slip.silence with st := .stuck, run := some run, recessive := 0 } = l.becomeStuck run := by
  unfold Line.becomeStuck Line.silence
  rw [l.slip_keep]

theorem State.lineStuck_eq (s : State) (run : Nat) : s.lineStuck run =
    if s.line.stuckBy run then
      match s.line.pending with
      | none => { s with line := s.line.becomeStuck run }
      | some q => State.frameBoundary { s with line := s.line.becomeStuck run } false q.age s.judgedOutcome
    else s := by
  have h : ∀ l : Line, { s.line.slip.silence with st := .stuck, run := some run, recessive := 0 } = l →
      s.lineStuck run = if s.line.stuckBy run then
        match s.line.pending with
        | none => { s with line := l }
        | some q => State.frameBoundary { s with line := l } false q.age (State.judgedOutcome { s with line := l })
      else s := by
    intro l hl; subst hl; rfl
  rw [h _ (Line.becomeStuck_eq run s.line)]
  rfl

/-! ### Which line states a boundary leads to -/

/-- A boundary never starts the driver, and a transmission that ends in SILENT_FAULT releases it. -/
theorem Line.countTransmission_st (l : Line) :
    (l.countTransmission.st = l.st ∨ l.countTransmission.st = .silentFault) ∧
      (l.st = .stuck → l.countTransmission.st = .stuck) ∧
      (l.txEnd = none → l.countTransmission = l) ∧
      (l.countTransmission.st = l.st → l.countTransmission.markDrive = l.markDrive ∨ l.countTransmission.markDrive = none) ∧
      (l.countTransmission.st ≠ l.st → l.countTransmission.markDrive = none ∧ l.countTransmission.sending = none) ∧
      (l.markDrive = none → l.countTransmission.markDrive = none) ∧
      (l.countTransmission.sfKind = .timed → l.sfKind = .timed ∧ l.countTransmission.st = l.st ∨
        l.countTransmission.st = .silentFault ∨ l.countTransmission.st = .stuck) := by
  unfold Line.countTransmission Line.toSilentFault Line.silence
  cases h : l.txEnd with
  | none =>
    refine ⟨Or.inl rfl, id, fun _ => ?_, fun _ => Or.inl rfl, fun k => absurd rfl k, id, fun k => Or.inl ⟨k, rfl⟩⟩
    cases l
    dsimp only at h
    subst h
    rfl
  | some e =>
    cases e with
    | clean => exact ⟨Or.inl rfl, id, nofun, fun _ => Or.inl rfl, fun k => absurd rfl k, id, fun k => Or.inl ⟨k, rfl⟩⟩
    | slip => exact ⟨Or.inl rfl, id, nofun, fun _ => Or.inl rfl, fun k => absurd rfl k, id, fun k => Or.inl ⟨k, rfl⟩⟩
    | judging => exact ⟨Or.inl rfl, id, nofun, fun _ => Or.inl rfl, fun k => absurd rfl k, id, fun k => Or.inl ⟨k, rfl⟩⟩
    | collision =>
      dsimp only
      split
      · exact ⟨Or.inl rfl, id, nofun, fun _ => Or.inl rfl, fun k => absurd rfl k, id, fun k => Or.inl ⟨k, rfl⟩⟩
      · split <;>
        · by_cases hs : l.st = .stuck
          · simp [hs]
          · simp [hs]

theorem Line.countBoundary_st (l : Line) :
    (l.st = .stuck → l.countBoundary.st = .stuck) ∧ (l.st = .off → l.sfKind = .none → l.countBoundary.st = .off) ∧
      (l.st = .active → l.sfKind ≠ .timed → l.countBoundary.st = .active) ∧
      (l.countBoundary.sfKind = .timed → l.sfKind = .timed ∧ l.countBoundary.st = l.st) ∧
      (l.sfKind = .none → l.countBoundary.sfKind = .none) := by
  unfold Line.countBoundary Line.countHold Line.countListen Line.holdOver
  split
  · split <;> simp_all
  · split
    · split <;> simp_all
    · simp_all

theorem Line.boundary_stuck (l : Line) (age : Nat) (h : l.st = .stuck) :
    (l.boundary age).st = .stuck ∧ (l.markDrive = none → (l.boundary age).markDrive = none) := by
  unfold Line.boundary
  refine ⟨(Line.countTransmission_st _).2.1 ((Line.countBoundary_st _).1 h), fun hm => ?_⟩
  refine (Line.countTransmission_st _).2.2.2.2.2.1 ?_
  rw [Line.countBoundary_law]
  exact hm

/-- The line laws of `State.driveSafe`, on the record: the driver is on in ACTIVE alone, and a timed SILENT_FAULT
stands in SILENT_FAULT or STUCK. -/
def Line.driveLaw (l : Line) : Prop :=
  (l.markDrive.isSome = true ∨ l.sending.isSome = true → l.st = .active) ∧
  (l.sfKind = .timed → l.st = .silentFault ∨ l.st = .stuck)

/-- An OFF line that nothing is sent on, without a SILENT_FAULT. -/
def Line.idleOff (l : Line) : Prop := l.st = .off ∧ l.sending = none ∧ l.txEnd = none ∧ l.sfKind = .none

theorem Line.boundary_off (l : Line) (age : Nat) (h : l.idleOff) : (l.boundary age).idleOff := by
  obtain ⟨h1, h2, h3, h4⟩ := h
  unfold Line.boundary
  have hb := Line.countBoundary_law { l with
    frameTimer := some age, pending := none, cycleMarkReq := l.cycleMarkReq && l.pending.isNone
    sending := none, outcomes := .tab fun _ => none }
  have hs := Line.countBoundary_st { l with
    frameTimer := some age, pending := none, cycleMarkReq := l.cycleMarkReq && l.pending.isNone
    sending := none, outcomes := .tab fun _ => none }
  generalize Line.countBoundary _ = m at hb hs ⊢
  have ht : m.txEnd = none := by rw [hb]; exact h3
  rw [(Line.countTransmission_st m).2.2.1 ht]
  exact ⟨hs.2.1 h1 h4, by rw [hb], ht, hs.2.2.2.2 h4⟩

theorem Line.countTransmission_driveLaw (l : Line) (h : l.driveLaw) : l.countTransmission.driveLaw := by
  have k := Line.countTransmission_st l
  have e := (Line.countTransmission_law l).2.2.1
  obtain ⟨h1, h2⟩ := h
  obtain ⟨k1, k2, k3, k4, k5, k6, k7⟩ := k
  refine ⟨fun hm => ?_, fun hk => ?_⟩
  · by_cases hst : l.countTransmission.st = l.st
    · rw [hst]
      apply h1
      rcases hm with hm | hm
      · left
        cases hl : l.markDrive with
        | none => rw [k6 hl] at hm; exact hm
        | some _ => rfl
      · right
        cases hl : l.sending with
        | none => rw [e hl] at hm; exact hm
        | some _ => rfl
    · have := k5 hst
      rw [this.1, this.2] at hm
      simp at hm
  · rcases k7 hk with ⟨a, b⟩ | a | a
    · rw [b]; exact h2 a
    · exact Or.inl a
    · exact Or.inr a

theorem Line.countBoundary_driveLaw (l : Line) (h : l.driveLaw) : l.countBoundary.driveLaw := by
  obtain ⟨h1, h2⟩ := h
  have hb := Line.countBoundary_law l
  have hs := Line.countBoundary_st l
  refine ⟨fun hm => ?_, fun hk => ?_⟩
  · have : l.markDrive.isSome = true ∨ l.sending.isSome = true := by rw [hb] at hm; exact hm
    have ha := h1 this
    refine hs.2.2.1 ha fun ht => ?_
    have := h2 ht
    rw [ha] at this
    simp at this
  · have := hs.2.2.2.1 hk
    rw [this.2]
    exact h2 this.1

theorem Line.boundary_driveLaw (l : Line) (age : Nat) (h : l.driveLaw) : (l.boundary age).driveLaw := by
  refine Line.countTransmission_driveLaw _ (Line.countBoundary_driveLaw _ ⟨fun hm => ?_, h.2⟩)
  refine h.1 (hm.imp id fun k => ?_)
  cases k

/-- What a remote detector takes at a boundary (R123, R124). -/
theorem State.remoteValue_cases (s : State) (r : RemoteId) :
    (s.remoteDef r = none → s.remoteValue r = .unused) ∧
    ∀ f, s.remoteDef r = some f →
      (s.presentRecord f.station = none → s.remoteValue r = .lost) ∧
      ∀ q, s.presentRecord f.station = some q →
        (BitSet.has q.faults f.input = true → s.remoteValue r = .lost) ∧
        (BitSet.has q.faults f.input = false → s.remoteValue r = .normal (BitSet.has q.occupancy f.input)) := by
  unfold State.remoteValue
  refine ⟨fun h => by rw [h], fun f h => ?_⟩
  rw [h]
  exact ⟨fun e => by dsimp only; rw [e], fun q e => by dsimp only; rw [e]; exact ⟨fun x => if_pos x, fun x => by simp [x]⟩⟩

end Sys2Proof.Machine
end

