-- ==== Sys2Proof/Laws/React.lean ====
section
/-! SUPPORT. Laws/React.lean: the induction over what follows an event: a property that each of its steps keeps is kept by the whole. -/

namespace Sys2Proof.Machine

/-- The steps that can follow an event at its own moment keep the property `P`. -/
structure FollowKeeps (P : State → Prop) : Prop where
  follow : ∀ s, P s → P s.follow
  draw : ∀ s n, P s → P { s with freeCount := n }
  grant : ∀ s g, s.clearToOpen g = true → P s → P (s.leaveRed g)
  seq : ∀ s t, s.seqStep = some t → P s → P t
  flash : ∀ s, s.waitOver = true → P s → P (s.enterMode .panelFlash)
  lamps : ∀ s, P s → P s.lampSync

/-- A grant is one of a group that is clear to open (R66). -/
theorem State.grantStep_some {s t : State} (h : s.grantStep = some t) :
    ∃ g, s.clearToOpen g = true ∧ t = s.leaveRed g := by
  unfold State.grantStep at h
  rw [Option.map_eq_some_iff] at h
  obtain ⟨g, hg, ht⟩ := h
  exact ⟨g, firstFin_some hg, ht.symm⟩

theorem FollowKeeps.settle {P : State → Prop} (k : FollowKeeps P) (n : Nat) (s : State) (h : P s) :
    P (State.settle n s) := by
  induction n generalizing s with
  | zero => exact h
  | succ n ih =>
    unfold State.settle
    split
    · rename_i s1 h1
      obtain ⟨g, hg, rfl⟩ := State.grantStep_some h1
      exact ih _ (k.follow _ (k.grant s g hg h))
    · split
      · rename_i s1 h1
        exact ih _ (k.follow _ (k.seq s s1 h1 h))
      · exact h

theorem FollowKeeps.endWait {P : State → Prop} (k : FollowKeeps P) (s : State) (h : P s) : P s.endWait := by
  unfold State.endWait
  split
  · rename_i hw
    exact k.follow _ (k.flash s hw h)
  · exact h

theorem FollowKeeps.raceWait {P : State → Prop} (k : FollowKeeps P) (s : State) (h : P s) : P s.raceWait := by
  have e : s.raceWait =
      if s.waitOver then if (s.draw 2).1 = 0 then (s.draw 2).2.endWait else (s.draw 2).2 else s := rfl
  rw [e]
  split
  · split
    · exact k.endWait _ (k.draw s _ h)
    · exact k.draw s _ h
  · exact h

/-- What follows an event keeps a property that each of its steps keeps. -/
theorem FollowKeeps.react {P : State → Prop} (k : FollowKeeps P) (s : State) (h : P s) : P s.react :=
  k.lamps _ (k.endWait _ (k.settle _ _ (k.raceWait _ (k.follow _ h))))

end Sys2Proof.Machine
end

