-- ==== Sys2Proof/Laws/ClaimKeeps.lean ====
section
/-! SUPPORT. Laws/ClaimKeeps.lean: the ways in which the own claims and the identities in the claim table move: a property of them that each keeps is kept by every command. -/

namespace Sys2Proof.Machine

/-- The identities in the claim table, in its order (R131). -/
def State.claimIds (s : State) : List (StationId × Fin 16) := s.claims.table.map fun e => (e.origin, e.serial)

/-! ### Arbitration keeps the identities and their order -/

theorem map_ids {f : ClaimEntry → ClaimEntry} (h : ∀ e, ((f e).origin, (f e).serial) = (e.origin, e.serial))
    (t : List ClaimEntry) : ((t.map f).map fun e => (e.origin, e.serial)) = t.map fun e => (e.origin, e.serial) := by
  rw [List.map_map]
  exact List.map_congr_left fun e _ => h e

theorem ClaimEntry.toReady_id (e : ClaimEntry) : (e.toReady.origin, e.toReady.serial) = (e.origin, e.serial) := by
  unfold ClaimEntry.toReady
  split <;> rfl

theorem chooseService_ids (hold : Priority → Nat) (sv : Priority → Bool) (t : List ClaimEntry) :
    ((chooseService hold sv t).map fun e => (e.origin, e.serial)) = t.map fun e => (e.origin, e.serial) := by
  unfold chooseService
  dsimp only
  repeat' split
  all_goals first
    | rfl
    | exact map_ids (fun e => by split <;> rfl) t

theorem joinService_ids (hold : Priority → Nat) (sv : Priority → Bool) (c : StageId) (b : Bool) (t : List ClaimEntry) :
    ((joinService hold sv c b t).map fun e => (e.origin, e.serial)) = t.map fun e => (e.origin, e.serial) := by
  induction t generalizing b with
  | nil => rfl
  | cons e t ih =>
    unfold joinService
    split
    · rw [List.map_cons, List.map_cons, ih]
      rfl
    · rw [List.map_cons, List.map_cons, ih]

theorem arbitrateTable_ids (hold : Priority → Nat) (sv : Priority → Bool) (t : List ClaimEntry) :
    ((arbitrateTable hold sv t).map fun e => (e.origin, e.serial)) = t.map fun e => (e.origin, e.serial) := by
  have h1 : ((t.map fun e => if e.state == .serving && !sv e.priority then e.toReady else e).map
      fun e => (e.origin, e.serial)) = t.map fun e => (e.origin, e.serial) :=
    map_ids (fun e => by
      split
      · exact e.toReady_id
      · rfl) t
  unfold arbitrateTable
  dsimp only
  split
  · rw [chooseService_ids, h1]
  · split
    · rw [chooseService_ids, map_ids ClaimEntry.toReady_id, joinService_ids, h1]
    · rw [joinService_ids, h1]

theorem updFirst_ids {p : ClaimEntry → Bool} {f : ClaimEntry → ClaimEntry}
    (h : ∀ e, ((f e).origin, (f e).serial) = (e.origin, e.serial)) (t : List ClaimEntry) :
    ((updFirst p f t).map fun e => (e.origin, e.serial)) = t.map fun e => (e.origin, e.serial) := by
  induction t with
  | nil => rfl
  | cons e t ih =>
    unfold updFirst
    split
    · rw [List.map_cons, List.map_cons, h]
    · rw [List.map_cons, List.map_cons, ih]

theorem State.setService_claims (s : State) (c : Option StageId) : (s.setService c).claims = s.claims := by
  unfold State.setService
  split
  · rfl
  · cases c with
    | none => rfl
    | some x =>
      dsimp only
      unfold State.assertService
      repeat' split
      all_goals rfl

theorem State.arbitrate_table (s : State) : s.arbitrate.claims =
    { s.claims with table := arbitrateTable s.holdTicks (served s.ctrl.mode s.manualFlag) s.claims.table } := by
  unfold State.arbitrate
  dsimp only
  rw [State.setService_claims]
  rfl

theorem State.arbitrate_ids (s : State) : s.arbitrate.claimIds = s.claimIds := by
  unfold State.claimIds
  rw [State.arbitrate_table]
  exact arbitrateTable_ids _ _ _

/-! ### The moves -/

/-- `P` looks at the own claims and the identities in the claim table alone, and raising a claim, the claim unit's
part of a boundary and a withdrawal keep it. -/
structure ClaimKeeps (P : State → Prop) : Prop where
  congr : ∀ s t : State, t.claims.own = s.claims.own → t.claimIds = s.claimIds → P s → P t
  claimEdge : ∀ (s : State) (n : RouteId) (q : Priority), P s → P (s.claimEdge n q)
  claimSteps : ∀ (s : State) (p : Plan), P s → P (s.claimSteps p)
  withdraw : ∀ (s : State) (o : StationId) (n : Fin 16), P s →
    P (s.withClaimTable (s.claims.table.eraseP (·.is o n)))

namespace ClaimKeeps

variable {P : State → Prop} (k : ClaimKeeps P)

include k

theorem arbitrate (s : State) (h : P s) : P s.arbitrate :=
  k.congr s _ s.arbitrate_follows.claims_own_eq s.arbitrate_ids h

theorem updClaim (s : State) (o : StationId) (n : Fin 16) (f : ClaimEntry → ClaimEntry)
    (hf : ∀ e, ((f e).origin, (f e).serial) = (e.origin, e.serial)) (h : P s) : P (s.updClaim o n f) :=
  k.congr s _ rfl (updFirst_ids hf _) h

theorem clearFirst (s : State) (p : ClaimEntry → Bool) (h : P s) : P (s.clearFirst p) :=
  k.congr s _ rfl (updFirst_ids (f := (·.toCleared s.claims.place)) (fun _ => rfl) s.claims.table) h

theorem request (s : State) (t : StageId) (h : P s) : P (s.request t) := k.congr s _ rfl rfl h

theorem leaveRed (s : State) (g : GroupId) (_ : s.clearToOpen g = true) (h : P s) : P (s.leaveRed g) := by
  unfold State.leaveRed
  split
  · exact k.congr s _ rfl rfl h
  · exact k.congr s _ rfl rfl h

theorem beginChange (s : State) (a b : StageId) (h : P s) : P (s.beginChange a b) :=
  k.request _ b (k.congr s _ rfl rfl h)

theorem replaceChange (s : State) (c : Change) (b : StageId) (h : P s) : P (s.replaceChange c b) :=
  k.request _ b (k.congr s _ rfl rfl h)

theorem startChange (s : State) (h : P s) : P s.startChange := by
  unfold State.startChange
  split
  · exact h
  · exact k.request _ _ (k.congr s _ rfl rfl h)

theorem completeChange (s : State) (c : Change) (h : P s) : P (s.completeChange c) := by
  unfold State.completeChange
  generalize (if s.mainStage = some c.toStage then false else s.seq.release) = r
  cases c.replacement with
  | none => exact k.congr s _ rfl rfl h
  | some t =>
    dsimp only
    split
    · exact k.congr s _ rfl rfl h
    · exact k.beginChange _ _ _ (k.congr s _ rfl rfl h)

theorem seqStep (s t : State) (e : s.seqStep = some t) (h : P s) : P t := by
  unfold State.seqStep at e
  split at e
  · cases e
  · rename_i c _
    split at e
    · cases e
      exact k.congr s _ rfl rfl h
    · split at e
      · cases e
        exact k.completeChange s c h
      · cases e
  · split at e
    · rename_i d _ _
      cases hu : s.selectTarget d with
      | none => simp [hu] at e
      | some u =>
        rw [hu] at e
        cases e
        exact k.beginChange s d u h
    · cases e

theorem advance (s : State) (h : P s) : P s.advance := by
  unfold State.advance
  split
  · split
    · exact h
    · split
      · split
        · exact h
        · exact k.beginChange s _ _ h
      · exact h
    · split
      · exact h
      · split
        · split
          · exact h
          · exact k.replaceChange s _ _ h
        · exact h
  · exact h

theorem enterMode (s : State) (m : Mode) (h : P s) : P (s.enterMode m) := by
  have hf : ∀ (t : State) (a b : Mode), P t → P (t.forceChange a b) := by
    intro t a b ht
    unfold State.forceChange
    split
    · exact ht
    · exact k.congr t _ rfl rfl ht
  have hq : ∀ (t : State) (a b : Mode), P t → P (t.seqModeChange a b) := by
    intro t a b ht
    unfold State.seqModeChange
    split
    · exact k.startChange t ht
    · split
      · exact k.congr t _ rfl rfl ht
      · exact ht
  have hc : ∀ t : State, P t → P (if m = .check then t.selfCheckStart else t) := by
    intro t ht
    split
    · exact k.congr t _ rfl rfl ht
    · exact ht
  have h1 : P { s with ctrl := { s.ctrl with mode := m, timer := m.timerStart, wait := false } } :=
    k.congr s _ rfl rfl h
  have h2 := k.arbitrate _ (hc _ (hq _ s.ctrl.mode m (hf _ s.ctrl.mode m h1)))
  refine k.congr _ (s.enterMode m) ?_ ?_ h2 <;> rfl

theorem followKeeps : FollowKeeps P where
  follow := fun s h => k.congr s _ rfl rfl h
  draw := fun s _ h => k.congr s _ rfl rfl h
  grant := k.leaveRed
  seq := k.seqStep
  flash := fun s _ h => k.enterMode s _ h
  lamps := fun s h => k.congr s _ rfl rfl h

theorem react (s : State) (h : P s) : P s.react := k.followKeeps.react s h

theorem flashSet (s : State) (h : P s) : P s.flashSet := by
  unfold State.flashSet
  split
  · exact k.enterMode s _ h
  · exact k.enterMode s _ h
  · split
    · exact k.enterMode s _ h
    · exact k.congr s _ rfl rfl h
  all_goals exact h

theorem enterJudged (s : State) (m : Mode) (h : P s) : P (s.enterJudged m) := by
  unfold State.enterJudged
  dsimp only
  split
  · exact k.flashSet _ (k.enterMode s m h)
  · exact k.enterMode s m h

theorem faultEvent (s : State) (r : Reason) (h : P s) : P (s.faultEvent r) := by
  unfold State.faultEvent
  split
  · exact k.congr s _ rfl rfl h
  · exact k.enterMode _ _ (k.congr s _ rfl rfl h)

theorem selfCheckFail (s : State) (c : ChanId) (h : P s) : P (s.selfCheckFail c) :=
  k.react _ (k.faultEvent _ _ (k.congr s _ rfl rfl h))

theorem latchConflict (s : State) (c : ConflictCause) (h : P s) : P (s.latchConflict c) := by
  unfold State.latchConflict
  split
  · exact h
  · exact k.faultEvent _ _ (k.congr s _ rfl rfl h)

theorem latchRedOut (s : State) (g : GroupId) (h : P s) : P (s.latchRedOut g) := by
  unfold State.latchRedOut
  split
  · exact h
  · exact k.faultEvent _ _ (k.congr s _ rfl rfl h)

theorem alsoRedOut (l : List GroupId) (s : State) (h : P s) : P (s.alsoRedOut l) := by
  cases l with
  | nil => exact h
  | cons g l => exact k.latchRedOut _ _ (k.congr s _ rfl rfl h)

theorem alsoConflict (l : List (GroupId × GroupId)) (s : State) (h : P s) : P (s.alsoConflict l) := by
  cases l with
  | nil => exact h
  | cons g l => exact k.latchConflict _ _ (k.congr s _ rfl rfl h)

theorem planFault (s : State) (c : Nat) (h : P s) : P (s.planFault c) :=
  k.react _ (k.enterMode _ _ (k.congr s _ rfl rfl h))

/-! ### The claim unit -/

theorem checkOut (s : State) (n : RouteId) (h : P s) : P (s.checkOut n) := by
  unfold State.checkOut
  split
  · exact k.arbitrate _ (k.clearFirst s _ h)
  · split
    · exact h
    · split
      · exact h
      · exact k.clearFirst s _ h

theorem edgeByMode (s : State) (d : LocalId) (f : LocalDef) (h : P s) : P (s.edgeByMode d f) := by
  unfold State.edgeByMode
  split
  · exact h
  · exact h
  · exact k.congr s _ rfl rfl h
  · exact k.claimEdge s _ _ h
  · exact k.checkOut s _ h

theorem claimBoundary (s : State) (p : Plan) (h : P s) : P (s.claimBoundary p) := by
  rw [State.claimBoundary_eq]
  have h1 := k.claimSteps s p h
  split
  · exact k.arbitrate _ h1
  · exact h1

/-! ### The frame boundary -/

theorem cycleOutput (s : State) (p : Plan) (c : Cycle) (d : Bool) (h : P s) : P (s.cycleOutput p c d) :=
  k.react _ (k.congr s _ rfl rfl h)

theorem cycleBoundary (s : State) (p : Plan) (heard : Bool) (h : P s) : P (s.cycleBoundary p heard) := by
  have h1 : P (State.requestMark { s with cycle := (s.cycleSteps p heard).1 } p) := by
    unfold State.requestMark
    split
    · exact k.congr s _ rfl rfl h
    · exact k.congr s _ rfl rfl h
  exact k.cycleOutput _ _ _ _ h1

theorem remoteBoundary (s : State) (h : P s) : P s.remoteBoundary := k.react _ (k.congr s _ rfl rfl h)

theorem claimsBoundary (s : State) (p : Plan) (h : P s) : P (s.claimsBoundary p) :=
  k.react _ (k.claimBoundary s p h)

theorem blocksBoundary (s : State) (p : Plan) (heard : Bool) (n : Nat) (h : P s) :
    P (s.blocksBoundary p heard n) := by
  unfold State.blocksBoundary
  split
  · exact k.claimsBoundary _ p (k.remoteBoundary _ (k.cycleBoundary s p heard h))
  · exact k.remoteBoundary _ (k.claimsBoundary _ p (k.cycleBoundary s p heard h))
  · exact k.claimsBoundary _ p (k.cycleBoundary _ p heard (k.remoteBoundary s h))
  · exact k.cycleBoundary _ p heard (k.claimsBoundary _ p (k.remoteBoundary s h))
  · exact k.remoteBoundary _ (k.cycleBoundary _ p heard (k.claimsBoundary s p h))
  · exact k.cycleBoundary _ p heard (k.remoteBoundary _ (k.claimsBoundary s p h))

theorem planBoundary (s : State) (heard : Bool) (h : P s) : P (s.planBoundary heard) := by
  unfold State.planBoundary
  split
  · exact h
  · rename_i p _
    have h1 := k.blocksBoundary (s.draw 6).2 p heard (s.draw 6).1 (k.congr s _ rfl rfl h)
    exact k.congr ((s.draw 6).2.blocksBoundary p heard (s.draw 6).1) _ rfl rfl h1

theorem frameBoundary (s : State) (heard : Bool) (age : Nat) (o : StationId → Outcome) (h : P s) :
    P (s.frameBoundary heard age o) := by
  have e := (s.atBoundary_law age o).1
  have ec : (s.atBoundary age o).claims = s.claims := (congrArg State.claims e).trans rfl
  have h1 : P (s.atBoundary age o) := k.congr s _ (by rw [ec]) (by unfold State.claimIds; rw [ec]) h
  rw [State.frameBoundary_eq]
  exact k.congr ((s.atBoundary age o).planBoundary heard) _ rfl rfl (k.planBoundary _ heard h1)

theorem runEnd (s : State) (len : Nat) (edge : Bool) (h : P s) : P (s.runEnd len edge) := by
  rw [State.runEnd_eq]
  repeat' split
  all_goals first
    | exact k.congr s _ rfl rfl h
    | exact k.frameBoundary _ _ _ _ (k.congr s _ rfl rfl h)

end ClaimKeeps

set_option maxHeartbeats 1000000 in
/-- Every command keeps a property of own claims and table identities that each move of theirs keeps, start-up
reset among them. -/
theorem ClaimKeeps.exec {P : State → Prop} (k : ClaimKeeps P) (reset : ∀ u : State, P u.resetAll) (c : Instr)
    (s t : State) (e : Sys2Proof.Machine.exec c s = .next t) (h : P s) : P t := by
  have kc : ∀ u : State, u.claims.own = s.claims.own → u.claimIds = s.claimIds → P u :=
    fun u h1 h2 => k.congr s u h1 h2 h
  have kr : ∀ u : State, u.claims.own = s.claims.own → u.claimIds = s.claimIds → P u.react :=
    fun u h1 h2 => k.react u (kc u h1 h2)
  have kq : ∀ row levels, P (s.receiveRow row levels) := fun row levels => by
    obtain ⟨d, q⟩ := s.receiveRow_diag row levels
    rw [q]
    exact kc _ rfl rfl
  cases c <;> (have e2 : _ = t := (by injection e); rw [← e2]; clear e e2)
  case startUpReset cause =>
    unfold State.startUpReset
    cases cause with
    | powerOn => exact k.congr s.resetAll _ rfl rfl (reset s)
    | supplyFall => exact k.congr s.resetAll _ rfl rfl (reset s)
    | resetLine held =>
      dsimp only
      split
      · exact reset _
      · exact kc _ rfl rfl
    | supplyReached => exact kc _ rfl rfl
    | resetLineHigh held => exact kc _ rfl rfl
  case resetRelease =>
    rcases s.resetRelease_cases with ⟨hm, e⟩ | e
    · exact e ▸ k.react _ (k.enterMode _ _ (k.congr s _ rfl rfl h))
    · rw [e]; exact h
  case frameTimerExpiry line =>
    unfold State.frameTimerExpiry
    dsimp only
    repeat' split
    all_goals first | with_reducible exact h | exact kc _ rfl rfl
  case dominantRunEnd len edge =>
    unfold State.dominantRunEnd
    dsimp only
    repeat' split
    · exact k.runEnd _ _ _ (kc _ rfl rfl)
    · exact kc _ rfl rfl
  case joinWindowClose =>
    unfold State.joinWindowClose
    repeat' split
    all_goals first | with_reducible exact h | exact k.frameBoundary _ _ _ _ h
  case lineStuck run =>
    show P (s.lineStuck run)
    rw [State.lineStuck_eq]
    repeat' split
    · exact kc _ rfl rfl
    · exact k.frameBoundary _ _ _ _ (kc _ rfl rfl)
    · exact h
  case markDriveEnd =>
    unfold State.markDriveEnd
    repeat' split
    all_goals first | with_reducible exact h | (with_reducible refine kr _ ?_ ?_) <;> rfl | exact kc _ rfl rfl
  case frameSlip =>
    unfold State.frameSlip
    repeat' split
    all_goals first | with_reducible exact h | (with_reducible refine kr _ ?_ ?_) <;> rfl | exact kc _ rfl rfl
  case recordTransmission =>
    unfold State.recordTransmission
    repeat' split
    all_goals first | with_reducible exact h | (with_reducible refine kr _ ?_ ?_) <;> rfl | exact kc _ rfl rfl
  case recordTransmissionEnd =>
    unfold State.recordTransmissionEnd
    repeat' split
    all_goals first | with_reducible exact h | (with_reducible refine kr _ ?_ ?_) <;> rfl | exact kc _ rfl rfl
  case collision m =>
    unfold State.collision
    repeat' split
    all_goals first | with_reducible exact h | (with_reducible refine kr _ ?_ ?_) <;> rfl | exact kc _ rfl rfl
  case ownSlotEnd =>
    unfold State.ownSlotEnd
    repeat' split
    all_goals first | with_reducible exact h | (with_reducible refine kr _ ?_ ?_) <;> rfl | exact kc _ rfl rfl
  case silentFaultHoldEnd =>
    unfold State.silentFaultHoldEnd
    repeat' split
    all_goals first | with_reducible exact h | (with_reducible refine kr _ ?_ ?_) <;> rfl | exact kc _ rfl rfl
  case listenEnd =>
    unfold State.listenEnd
    repeat' split
    all_goals first | with_reducible exact h | (with_reducible refine kr _ ?_ ?_) <;> rfl | exact kc _ rfl rfl
  case slotSilent k1 =>
    unfold State.slotSilent
    repeat' split
    all_goals first | with_reducible exact h | (with_reducible refine kr _ ?_ ?_) <;> rfl | exact kc _ rfl rfl
  case slotReception k1 pos levels further =>
    unfold State.slotReception
    repeat' split
    all_goals first | with_reducible exact h | (with_reducible refine kr _ ?_ ?_) <;> rfl | exact kc _ rfl rfl
  case peerClassification k1 a =>
    unfold State.peerClassification
    repeat' split
    all_goals first | with_reducible exact h | (with_reducible refine kr _ ?_ ?_) <;> rfl | exact kc _ rfl rfl
  case startHoldEnd =>
    unfold State.startHoldEnd
    repeat' split
    all_goals first | with_reducible exact h | (with_reducible refine kr _ ?_ ?_) <;> rfl | exact kc _ rfl rfl
  case requestedPatternChange =>
    unfold State.requestedPatternChange
    repeat' split
    all_goals first | with_reducible exact h | (with_reducible refine kr _ ?_ ?_) <;> rfl | exact kc _ rfl rfl
  case initialLevel d =>
    unfold State.initialLevel
    repeat' split
    all_goals first | with_reducible exact h | (with_reducible refine kr _ ?_ ?_) <;> rfl | exact kc _ rfl rfl
  case detectorFallingEdge d =>
    unfold State.detectorFallingEdge
    repeat' split
    all_goals first | with_reducible exact h | (with_reducible refine kr _ ?_ ?_) <;> rfl | exact kc _ rfl rfl
  case pulseOccupancyEnd d =>
    unfold State.pulseOccupancyEnd
    repeat' split
    all_goals first | with_reducible exact h | (with_reducible refine kr _ ?_ ?_) <;> rfl | exact kc _ rfl rfl
  case faultStuck d =>
    unfold State.faultStuck
    repeat' split
    all_goals first | with_reducible exact h | (with_reducible refine kr _ ?_ ?_) <;> rfl | exact kc _ rfl rfl
  case faultSilent d =>
    unfold State.faultSilent
    repeat' split
    all_goals first | with_reducible exact h | (with_reducible refine kr _ ?_ ?_) <;> rfl | exact kc _ rfl rfl
  case flashPhaseChange =>
    unfold State.flashPhaseChange
    repeat' split
    all_goals first | with_reducible exact h | (with_reducible refine kr _ ?_ ?_) <;> rfl | exact kc _ rfl rfl
  case settleEnd c =>
    unfold State.settleEnd
    repeat' split
    all_goals first | with_reducible exact h | (with_reducible refine kr _ ?_ ?_) <;> rfl | exact kc _ rfl rfl
  case uncommandedOn c =>
    unfold State.uncommandedOn
    repeat' split
    all_goals first | with_reducible exact h | (with_reducible refine kr _ ?_ ?_) <;> rfl | exact kc _ rfl rfl
  case lampOut c =>
    unfold State.lampOut
    repeat' split
    all_goals first | with_reducible exact h | (with_reducible refine kr _ ?_ ?_) <;> rfl | exact kc _ rfl rfl
  case transferRetry =>
    unfold State.transferRetry
    repeat' split
    all_goals first | with_reducible exact h | (with_reducible refine kr _ ?_ ?_) <;> rfl | exact kc _ rfl rfl
  case diagReplyEnd =>
    unfold State.diagReplyEnd
    repeat' split
    all_goals first | with_reducible exact h | (with_reducible refine kr _ ?_ ?_) <;> rfl | exact kc _ rfl rfl
  case stuckEnd =>
    unfold State.stuckEnd
    dsimp only
    repeat' split
    all_goals first | with_reducible exact h | (with_reducible refine kr _ ?_ ?_) <;> rfl | exact kc _ rfl rfl
  case peerLost k1 =>
    unfold State.peerLost
    dsimp only
    repeat' split
    all_goals first | with_reducible exact h | (with_reducible refine kr _ ?_ ?_) <;> rfl | exact kc _ rfl rfl
  case peerAbsent k1 =>
    unfold State.peerAbsent
    dsimp only
    repeat' split
    all_goals first | with_reducible exact h | (with_reducible refine kr _ ?_ ?_) <;> rfl | exact kc _ rfl rfl
  case patternLineChange line level held =>
    unfold State.patternLineChange State.judgePair
    dsimp only
    repeat' split
    all_goals first | with_reducible exact h | (with_reducible refine kr _ ?_ ?_) <;> rfl | exact kc _ rfl rfl
  case stationQuery l => exact kq _ l
  case groupsQuery l => exact kq _ l
  case detectorsQuery l => exact kq _ l
  case peersQuery l => exact kq _ l
  case claimsQuery l => exact kq _ l
  case faultsQuery l => exact kq _ l
  case countsQuery l => exact kq _ l
  case errorReply l => exact kq _ l
  case diagFramingError l => exact kq _ l
  case diagCharacterIgnored l => exact kq _ l
  case detectorInputChange d l => exact kc _ rfl rfl
  case unsetWaitEnd =>
    unfold State.unsetWaitEnd
    repeat' split
    all_goals first | with_reducible exact h | exact k.cycleOutput _ _ _ _ (kc _ rfl rfl)
  case divergenceAdoption =>
    unfold State.divergenceAdoption
    repeat' split
    all_goals first | with_reducible exact h | exact k.cycleOutput _ _ _ _ (kc _ rfl rfl)
  case openGrant g =>
    unfold State.openGrant
    split
    · rename_i hg
      unfold State.grantable at hg
      rw [Bool.and_eq_true] at hg
      exact k.react _ (k.leaveRed s g hg.1 h)
    · split
      · exact k.react s h
      · exact h
  case prepareEnd g =>
    unfold State.prepareEnd
    split
    · exact kr _ rfl rfl
    · exact h
  case minGreenEnd g =>
    unfold State.minGreenEnd
    split
    · exact kr _ rfl rfl
    · exact h
  case gapOut g =>
    unfold State.gapOut
    split
    · exact kr _ rfl rfl
    · exact h
  case maxDone g =>
    unfold State.maxDoneEvent
    split
    · exact kr _ rfl rfl
    · exact h
  case clearingEnd g =>
    unfold State.clearingEnd
    split
    · exact kr _ rfl rfl
    · exact h
  case manualChange a b =>
    unfold State.manualChange
    dsimp only
    repeat' split
    all_goals first | (with_reducible refine k.react _ ?_; exact k.arbitrate _ (kc _ rfl rfl)) | exact kc _ rfl rfl
  case advancePress a b =>
    unfold State.advancePress
    dsimp only
    repeat' split
    all_goals first | (with_reducible refine k.react _ ?_; exact k.advance _ (kc _ rfl rfl)) | exact kc _ rfl rfl
  case detectorRisingEdge d =>
    unfold State.detectorRisingEdge
    repeat' split
    all_goals first | with_reducible exact h | (with_reducible refine k.react _ ?_; exact k.edgeByMode _ _ _ (kc _ rfl rfl))
  case withdrawalDetected a b =>
    unfold State.withdrawalDetected
    dsimp only
    repeat' split
    · exact k.react _ (k.arbitrate _ (k.withdraw s _ _ h))
    · exact k.withdraw s _ _ h
    · exact h
    · exact h
  case claimReady a b =>
    unfold State.claimReady
    repeat' split
    · exact h
    · exact k.react _ (k.arbitrate _ (k.updClaim s _ _ _ (fun _ => rfl) h))
    · exact h
  case claimArrived a b =>
    unfold State.claimArrived
    dsimp only
    repeat' split
    · exact h
    · exact k.react _ (k.arbitrate _ (k.updClaim s _ _ _ (fun _ => rfl) h))
    · exact k.updClaim s _ _ _ (fun _ => rfl) h
    · exact h
  case holdEnd a b =>
    unfold State.holdEnd
    repeat' split
    · exact h
    · exact k.react _ (k.arbitrate _ (k.clearFirst s _ h))
    · exact h
  case claimLifetimeEnd a b =>
    unfold State.claimLifetimeEnd
    dsimp only
    repeat' split
    · exact h
    · exact k.react _ (k.arbitrate _ (k.updClaim s _ _ _ (fun _ => rfl) h))
    · exact k.updClaim s _ _ _ (fun _ => rfl) h
    · exact h
  case senseChange a b c =>
    unfold State.senseChange
    dsimp only
    repeat' split
    all_goals first | (with_reducible refine k.selfCheckFail _ _ ?_; exact kc _ rfl rfl) | exact kc _ rfl rfl
  case conflict a b =>
    unfold State.conflictEvent
    split
    · exact k.react _ (k.alsoRedOut _ _ (k.latchConflict s _ h))
    · exact h
  case greenInFlash g =>
    unfold State.greenInFlash
    split
    · exact k.react _ (k.latchConflict s _ h)
    · exact h
  case redOut g =>
    unfold State.redOutEvent
    split
    · exact k.react _ (k.alsoConflict _ _ (k.latchRedOut s _ h))
    · exact h
  case selfCheckPass =>
    unfold State.selfCheckPass
    split
    · exact k.react _ (k.enterJudged _ _ (kc _ rfl rfl))
    · exact h
  case selfCheckSettleEnd =>
    unfold State.selfCheckSettleEnd
    dsimp only
    repeat' split
    all_goals first | with_reducible exact h | (with_reducible refine k.selfCheckFail _ _ ?_; exact kc _ rfl rfl) | exact kc _ rfl rfl
  case startFlashEnd =>
    unfold State.startFlashEnd
    split
    · exact k.react _ (k.enterJudged s _ h)
    · exact h
  case allRedEnd =>
    have h1 := k.react _ (k.enterMode s .running h)
    unfold State.allRedEnd
    dsimp only
    repeat' split
    · exact k.react _ (k.flashSet _ h1)
    · exact h1
    · exact h
  case flashRequestChange a b =>
    unfold State.flashRequestChange State.flashCleared
    dsimp only
    repeat' split
    · exact kc _ rfl rfl
    · exact kc _ rfl rfl
    · exact k.react _ (k.flashSet _ (kc _ rfl rfl))
    · exact kr _ rfl rfl
    · exact k.react _ (k.enterJudged _ _ (kc _ rfl rfl))
    all_goals exact kr _ rfl rfl
  case panelFaultReset a b =>
    unfold State.panelFaultReset
    dsimp only
    split
    · refine k.react _ ?_
      unfold State.faultResetOrders
      dsimp only
      split
      · exact k.enterMode _ _ (kc _ rfl rfl)
      · exact kc _ rfl rfl
    · exact kc _ rfl rfl
  case planTransfer levels =>
    unfold State.planTransfer State.transferDone
    dsimp only
    repeat' split
    all_goals first | with_reducible exact h | exact k.planFault _ _ (kc _ rfl rfl) | exact kc _ rfl rfl
  case transferFailure levels =>
    unfold State.transferFailure State.transferFailed
    repeat' split
    all_goals first | with_reducible exact h | with_reducible exact k.planFault _ _ h | exact kc _ rfl rfl
  case planValidation =>
    unfold State.planValidation
    split
    · split
      · exact k.react _ (k.enterMode _ _ (kc _ rfl rfl))
      · exact k.planFault _ _ h
    · exact h


end Sys2Proof.Machine
end

