-- ==== Sys2Proof/Laws/ServeKeeps.lean ====
section
/-! SUPPORT. Laws/ServeKeeps.lean: the ways in which the SERVING entries and the asserted service stage move: a property of them that each keeps is kept by every command. -/

namespace Sys2Proof.Machine

/-- Every SERVING entry of `u` has the stage of a SERVING entry of `t`. -/
def servesWithin (t u : List ClaimEntry) : Prop :=
  ∀ e ∈ u, e.state = .serving → ∃ x ∈ t, x.state = .serving ∧ x.stage = e.stage

theorem servesWithin_refl (t : List ClaimEntry) : servesWithin t t := fun e he hs => ⟨e, he, hs, rfl⟩

theorem servesWithin.trans {t u v : List ClaimEntry} (h : servesWithin t u) (k : servesWithin u v) : servesWithin t v := by
  intro e he hs
  obtain ⟨x, hx, hs2, e2⟩ := k e he hs
  obtain ⟨y, hy, hs3, e3⟩ := h x hx hs2
  exact ⟨y, hy, hs3, e3.trans e2⟩

/-- `P` looks at the mode, the claim table and the asserted service stage alone, and these moves keep it. -/
structure ServeKeeps (P : State → Prop) : Prop where
  congr : ∀ s t : State, t.ctrl.mode = s.ctrl.mode → t.claims.table = s.claims.table →
    t.seq.service = s.seq.service → P s → P t
  enterMode : ∀ (s : State) (m : Mode), P s → P (s.enterMode m)
  arbitrated : ∀ s u : State, servesWithin s.claims.table u.claims.table → P s → P u.arbitrate
  boundary : ∀ s u : State, u.ctrl.mode = s.ctrl.mode → u.seq.service = s.seq.service →
    servesWithin s.claims.table u.claims.table → servingLost s.claims.table u.claims.table = false → P s → P u
  tabled : ∀ s u : State, u.ctrl.mode = s.ctrl.mode → u.seq.service = s.seq.service →
    servesWithin s.claims.table u.claims.table → servesWithin u.claims.table s.claims.table → P s → P u

/-! ### Table operations -/

theorem dropLast_sub (p : ClaimEntry → Bool) (t : List ClaimEntry) : List.Sublist (dropLast p t) t := by
  unfold dropLast
  have := (List.eraseP_sublist (p := p) (l := t.reverse)).reverse
  rwa [List.reverse_reverse] at this

theorem mem_dropLast {p : ClaimEntry → Bool} {t : List ClaimEntry} {e : ClaimEntry} (h : e ∈ t) (hp : p e = false) :
    e ∈ dropLast p t := by
  unfold dropLast
  rw [List.mem_reverse]
  exact (List.mem_eraseP_of_neg (by simp [hp])).mpr (List.mem_reverse.mpr h)

theorem sublist_serves {t u : List ClaimEntry} (h : List.Sublist u t) : servesWithin t u :=
  fun e he hs => ⟨e, h.subset he, hs, rfl⟩

/-- An entry offered to the table is not SERVING, and none that is leaves it (R135). -/
theorem State.offer_serves (s : State) (e : ClaimEntry) (he : e.state ≠ .serving) :
    servesWithin s.claims.table (s.offer e).claims.table ∧ servesWithin (s.offer e).claims.table s.claims.table := by
  have happ : ∀ t : List ClaimEntry, servesWithin t (t ++ [e]) ∧ servesWithin (t ++ [e]) t := by
    intro t
    refine ⟨fun x hx hs => ?_, fun x hx hs => ⟨x, List.mem_append_left _ hx, hs, rfl⟩⟩
    rcases List.mem_append.mp hx with hx | hx
    · exact ⟨x, hx, hs, rfl⟩
    · rw [List.mem_singleton] at hx
      subst hx
      exact absurd hs he
  unfold State.offer
  dsimp only
  split
  · exact happ _
  · split
    · have hd : servesWithin (dropLast ClaimEntry.displaceable s.claims.table) s.claims.table := by
        intro x hx hs
        refine ⟨x, mem_dropLast hx ?_, hs, rfl⟩
        unfold ClaimEntry.displaceable
        rw [hs]
        simp
      exact ⟨(sublist_serves (dropLast_sub _ _)).trans (happ _).1, (happ _).2.trans hd⟩
    · exact ⟨servesWithin_refl _, servesWithin_refl _⟩

theorem State.offerOwn_serves (s : State) (p : Plan) (o : OwnClaim) :
    servesWithin s.claims.table (s.offerOwn p o).claims.table ∧
      servesWithin (s.offerOwn p o).claims.table s.claims.table := by
  unfold State.offerOwn
  split
  · exact ⟨servesWithin_refl _, servesWithin_refl _⟩
  · split
    · exact ⟨servesWithin_refl _, servesWithin_refl _⟩
    · exact s.offer_serves _ nofun

theorem Plan.entryFor_state {p : Plan} {k : StationId} {c : ClaimField} {e : ClaimEntry} (h : p.entryFor k c = some e) :
    e.state ≠ .serving := by
  unfold Plan.entryFor at h
  dsimp only at h
  repeat' split at h
  all_goals first
    | (cases h; done)
    | (cases h
       nofun)

theorem State.offerPeer_serves (s : State) (p : Plan) (k : StationId) (c : ClaimField) :
    servesWithin s.claims.table (s.offerPeer p k c).claims.table ∧
      servesWithin (s.offerPeer p k c).claims.table s.claims.table := by
  unfold State.offerPeer
  split
  · exact ⟨servesWithin_refl _, servesWithin_refl _⟩
  · rename_i e he
    split
    · exact ⟨servesWithin_refl _, servesWithin_refl _⟩
    · exact s.offer_serves e (Plan.entryFor_state he)

theorem foldl_serves {α : Type} (f : State → α → State) (hf : ∀ s a,
      servesWithin s.claims.table (f s a).claims.table ∧ servesWithin (f s a).claims.table s.claims.table)
    (l : List α) (s : State) : servesWithin s.claims.table (l.foldl f s).claims.table ∧
      servesWithin (l.foldl f s).claims.table s.claims.table := by
  induction l generalizing s with
  | nil => exact ⟨servesWithin_refl _, servesWithin_refl _⟩
  | cons a l ih => exact ⟨(hf s a).1.trans (ih _).1, (ih _).2.trans (hf s a).2⟩

theorem State.entry_serves (s : State) (p : Plan) : servesWithin s.claims.table (s.entry p).claims.table ∧
    servesWithin (s.entry p).claims.table s.claims.table := by
  have h1 := foldl_serves (State.offerPublished p) (fun t kc => by
      unfold State.offerPublished
      split
      · exact t.offerPeer_serves p _ _
      · exact ⟨servesWithin_refl _, servesWithin_refl _⟩) s.published s
  have h2 := foldl_serves (fun (t : State) (o : OwnClaim) => t.offerOwn p o) (fun t o => t.offerOwn_serves p o)
    (s.ownUnlisted p)
    (s.peerEntry p)
  exact ⟨h1.1.trans h2.1, h2.2.trans h1.2⟩

theorem State.withdrawalMiss_serves {s : State} {p : Plan} {e x : ClaimEntry} (h : s.withdrawalMiss p e = some x) :
    x.state = e.state ∧ x.stage = e.stage ∧ x.origin = e.origin ∧ x.serial = e.serial := by
  unfold State.withdrawalMiss at h
  repeat' split at h
  all_goals first
    | (cases h; exact ⟨rfl, rfl, rfl, rfl⟩)
    | cases h

/-- The claim unit's steps at a boundary make no entry SERVING (R147). -/
theorem State.claimSteps_serves (s : State) (p : Plan) : servesWithin s.claims.table (s.claimSteps p).claims.table := by
  have h1 : servesWithin s.claims.table (s.originLoss p).claims.table := sublist_serves List.filter_sublist
  have h2 : servesWithin (s.originLoss p).claims.table ((s.originLoss p).withdrawalDetection p).claims.table := by
    intro e he hs
    obtain ⟨x, hx, hm⟩ := List.mem_filterMap.mp he
    have h := State.withdrawalMiss_serves hm
    exact ⟨x, hx, h.1.symm.trans hs, h.2.1.symm⟩
  have h4 : servesWithin (((s.originLoss p).withdrawalDetection p).clearedBy p).claims.table
      ((((s.originLoss p).withdrawalDetection p).clearedBy p).originWithdrawal p).claims.table :=
    sublist_serves List.filter_sublist
  exact (h1.trans h2).trans (h4.trans (State.entry_serves _ p).1)

/-- Where no SERVING entry has been removed, one that stood SERVING leaves one SERVING (R147, step 6). -/
theorem serving_stands {before after : List ClaimEntry} (h : servingLost before after = false) {e : ClaimEntry}
    (he : e ∈ before) (hs : e.state = .serving) : ∃ x ∈ after, x.state = .serving := by
  unfold servingLost at h
  rw [List.any_eq_false] at h
  have h1 := h
  have hm : (e.origin, e.serial) ∈ servingIds before := by
    unfold servingIds
    exact List.mem_map.mpr ⟨e, List.mem_filter.mpr ⟨he, by simp [hs]⟩, rfl⟩
  have h2 := h1 _ hm
  have h3 : (e.origin, e.serial) ∈ servingIds after := by simpa using h2
  unfold servingIds at h3
  obtain ⟨x, hx, _⟩ := List.mem_map.mp h3
  obtain ⟨hx1, hx2⟩ := List.mem_filter.mp hx
  exact ⟨x, hx1, by simpa using hx2⟩

/-- An entry changed otherwise than to SERVING. -/
theorem updFirst_serves {p : ClaimEntry → Bool} {f : ClaimEntry → ClaimEntry}
    (h : ∀ e, (f e).state = .serving → e.state = .serving ∧ (f e).stage = e.stage) (t : List ClaimEntry) :
    servesWithin t (updFirst p f t) := by
  induction t with
  | nil => exact servesWithin_refl _
  | cons e t ih =>
    unfold updFirst
    split
    · intro x hx hs
      rcases List.mem_cons.mp hx with rfl | hx
      · exact ⟨e, List.mem_cons_self, (h e hs).1, (h e hs).2.symm⟩
      · exact ⟨x, List.mem_cons_of_mem _ hx, hs, rfl⟩
    · intro x hx hs
      rcases List.mem_cons.mp hx with rfl | hx
      · exact ⟨x, List.mem_cons_self, hs, rfl⟩
      · obtain ⟨y, hy, a, b⟩ := ih x hx hs
        exact ⟨y, List.mem_cons_of_mem _ hy, a, b⟩

/-- Where the first entry that satisfies `p` is not SERVING, changing it leaves every SERVING entry. -/
theorem updFirst_stands {p : ClaimEntry → Bool} {f : ClaimEntry → ClaimEntry} {t : List ClaimEntry}
    (h : ∀ e, t.find? p = some e → e.state ≠ .serving) : servesWithin (updFirst p f t) t := by
  induction t with
  | nil => exact servesWithin_refl _
  | cons e t ih =>
    unfold updFirst
    split
    · rename_i hp
      intro x hx hs
      rcases List.mem_cons.mp hx with rfl | hx
      · exact absurd hs (h x (by rw [List.find?_cons, hp]))
      · exact ⟨x, List.mem_cons_of_mem _ hx, hs, rfl⟩
    · rename_i hp
      intro x hx hs
      rcases List.mem_cons.mp hx with rfl | hx
      · exact ⟨x, List.mem_cons_self, hs, rfl⟩
      · rw [Bool.not_eq_true] at hp
        have := ih (fun y hy => h y (by rw [List.find?_cons, hp]; exact hy))
        obtain ⟨y, hy, a, b⟩ := this x hx hs
        exact ⟨y, List.mem_cons_of_mem _ hy, a, b⟩

theorem eraseP_stands {p : ClaimEntry → Bool} {t : List ClaimEntry}
    (h : ∀ e, t.find? p = some e → e.state ≠ .serving) : servesWithin (t.eraseP p) t := by
  induction t with
  | nil => exact servesWithin_refl _
  | cons e t ih =>
    by_cases hp : p e = true
    · rw [List.eraseP_cons_of_pos hp]
      intro x hx hs
      rcases List.mem_cons.mp hx with rfl | hx
      · exact absurd hs (h x (by rw [List.find?_cons, hp]))
      · exact ⟨x, hx, hs, rfl⟩
    · rw [List.eraseP_cons_of_neg hp]
      rw [Bool.not_eq_true] at hp
      intro x hx hs
      rcases List.mem_cons.mp hx with rfl | hx
      · exact ⟨x, List.mem_cons_self, hs, rfl⟩
      · have := ih (fun y hy => h y (by rw [List.find?_cons, hp]; exact hy))
        obtain ⟨y, hy, a, b⟩ := this x hx hs
        exact ⟨y, List.mem_cons_of_mem _ hy, a, b⟩

/-- An arrival leaves every SERVING entry SERVING (R140). -/
theorem arrive_stands (p : ClaimEntry → Bool) (hold : Priority → Nat) (t : List ClaimEntry) :
    servesWithin (updFirst p (ClaimEntry.arrive hold) t) t := by
  induction t with
  | nil => exact servesWithin_refl _
  | cons e t ih =>
    unfold updFirst
    intro x hx hs
    split
    · rcases List.mem_cons.mp hx with rfl | hx
      · exact ⟨_, List.mem_cons_self, by unfold ClaimEntry.arrive; simp [hs], rfl⟩
      · exact ⟨x, List.mem_cons_of_mem _ hx, hs, rfl⟩
    · rcases List.mem_cons.mp hx with rfl | hx
      · exact ⟨x, List.mem_cons_self, hs, rfl⟩
      · obtain ⟨y, hy, a, b⟩ := ih x hx hs
        exact ⟨y, List.mem_cons_of_mem _ hy, a, b⟩

/-! ### The sequencer keeps the asserted service stage -/

theorem State.startChange_service (s : State) : s.startChange.seq.service = s.seq.service := by
  unfold State.startChange
  split <;> rfl

theorem State.completeChange_service (s : State) (c : Change) : (s.completeChange c).seq.service = s.seq.service := by
  unfold State.completeChange
  dsimp only
  repeat' split
  all_goals rfl

theorem State.seqStep_service {s t : State} (e : s.seqStep = some t) :
    t.seq.service = s.seq.service ∧ t.claims = s.claims := by
  unfold State.seqStep at e
  split at e
  · cases e
  · rename_i c _
    split at e
    · cases e
      exact ⟨rfl, rfl⟩
    · split at e
      · cases e
        refine ⟨s.completeChange_service c, ?_⟩
        unfold State.completeChange
        dsimp only
        repeat' split
        all_goals rfl
      · cases e
  · split at e
    · rename_i d _ _
      cases hu : s.selectTarget d with
      | none => simp [hu] at e
      | some u =>
        rw [hu] at e
        cases e
        exact ⟨rfl, rfl⟩
    · cases e

theorem State.advance_service (s : State) : s.advance.seq.service = s.seq.service ∧ s.advance.claims = s.claims := by
  unfold State.advance
  repeat' split
  all_goals exact ⟨rfl, rfl⟩

namespace ServeKeeps

variable {P : State → Prop} (k : ServeKeeps P)

include k

theorem arbitrate (s : State) (h : P s) : P s.arbitrate := k.arbitrated s s (servesWithin_refl _) h

theorem advance (s : State) (h : P s) : P s.advance :=
  k.congr s _ (by rw [s.advance_ctrl]) (by rw [s.advance_service.2]) s.advance_service.1 h

theorem leaveRed (s : State) (g : GroupId) (h : P s) : P (s.leaveRed g) := by
  unfold State.leaveRed
  split
  · exact k.congr s _ rfl rfl rfl h
  · exact k.congr s _ rfl rfl rfl h

theorem followKeeps : FollowKeeps P where
  follow := fun s h => k.congr s _ rfl rfl rfl h
  draw := fun s _ h => k.congr s _ rfl rfl rfl h
  grant := fun s g _ h => k.leaveRed s g h
  seq := fun s t e h => k.congr s t (by rw [State.seqStep_ctrl e]) (by rw [(State.seqStep_service e).2])
    (State.seqStep_service e).1 h
  flash := fun s _ h => k.enterMode s _ h
  lamps := fun s h => k.congr s _ rfl rfl rfl h

theorem react (s : State) (h : P s) : P s.react := k.followKeeps.react s h

theorem flashSet (s : State) (h : P s) : P s.flashSet := by
  unfold State.flashSet
  split
  · exact k.enterMode s _ h
  · exact k.enterMode s _ h
  · split
    · exact k.enterMode s _ h
    · exact k.congr s _ rfl rfl rfl h
  all_goals exact h

theorem enterJudged (s : State) (m : Mode) (h : P s) : P (s.enterJudged m) := by
  unfold State.enterJudged
  dsimp only
  split
  · exact k.flashSet _ (k.enterMode s m h)
  · exact k.enterMode s m h

theorem faultEvent (s : State) (r : Reason) (h : P s) : P (s.faultEvent r) := by
  unfold State.faultEvent
  split
  · exact k.congr s _ rfl rfl rfl h
  · exact k.enterMode _ _ (k.congr s _ rfl rfl rfl h)

theorem selfCheckFail (s : State) (c : ChanId) (h : P s) : P (s.selfCheckFail c) :=
  k.react _ (k.faultEvent _ _ (k.congr s _ rfl rfl rfl h))

theorem latchConflict (s : State) (c : ConflictCause) (h : P s) : P (s.latchConflict c) := by
  unfold State.latchConflict
  split
  · exact h
  · exact k.faultEvent _ _ (k.congr s _ rfl rfl rfl h)

theorem latchRedOut (s : State) (g : GroupId) (h : P s) : P (s.latchRedOut g) := by
  unfold State.latchRedOut
  split
  · exact h
  · exact k.faultEvent _ _ (k.congr s _ rfl rfl rfl h)

theorem alsoRedOut (l : List GroupId) (s : State) (h : P s) : P (s.alsoRedOut l) := by
  cases l with
  | nil => exact h
  | cons g l => exact k.latchRedOut _ _ (k.congr s _ rfl rfl rfl h)

theorem alsoConflict (l : List (GroupId × GroupId)) (s : State) (h : P s) : P (s.alsoConflict l) := by
  cases l with
  | nil => exact h
  | cons g l => exact k.latchConflict _ _ (k.congr s _ rfl rfl rfl h)

theorem planFault (s : State) (c : Nat) (h : P s) : P (s.planFault c) :=
  k.react _ (k.enterMode _ _ (k.congr s _ rfl rfl rfl h))

/-! ### The claim unit -/

theorem claimEdge (s : State) (n : RouteId) (q : Priority) (h : P s) : P (s.claimEdge n q) := by
  rcases s.claimEdge_cases n q with ⟨e, _⟩ | ⟨p, _, _, _, e⟩ | e
  · rw [e]
    exact h
  · rw [e]
    exact k.arbitrated s _ (State.offerOwn_serves (s.withRaised _) p _).1 h
  · rw [e]
    exact k.congr s _ rfl rfl rfl h

theorem checkOut (s : State) (n : RouteId) (h : P s) : P (s.checkOut n) := by
  unfold State.checkOut
  split
  · exact k.arbitrated s _ (updFirst_serves (fun _ x => by cases x) _) h
  · rename_i hn
    split
    · exact h
    · split
      · exact h
      · refine k.tabled s _ rfl rfl (updFirst_serves (fun _ x => by cases x) _) (updFirst_stands fun x hx hs => ?_) h
        have hm := List.mem_of_find?_eq_some hx
        have hp := List.find?_some hx
        apply hn
        unfold State.serving
        rw [List.any_eq_true]
        simp only [Bool.and_eq_true, beq_iff_eq] at hp
        exact ⟨x, hm, by simp [hp.1, hs]⟩

theorem edgeByMode (s : State) (d : LocalId) (f : LocalDef) (h : P s) : P (s.edgeByMode d f) := by
  unfold State.edgeByMode
  split
  · exact h
  · exact h
  · exact k.congr s _ rfl rfl rfl h
  · exact k.claimEdge s _ _ h
  · exact k.checkOut s _ h

theorem claimBoundary (s : State) (p : Plan) (h : P s) : P (s.claimBoundary p) := by
  rw [State.claimBoundary_eq]
  split
  · exact k.arbitrated s _ (s.claimSteps_serves p) h
  · rename_i hd
    have ho := s.claimSteps_only p
    unfold State.onlyClaims at ho
    exact k.boundary s _ (by rw [ho]) (by rw [ho]) (s.claimSteps_serves p) (Bool.or_eq_false_iff.mp (by simpa using hd)).1 h

/-! ### The frame boundary -/

theorem cycleOutput (s : State) (p : Plan) (c : Cycle) (d : Bool) (h : P s) : P (s.cycleOutput p c d) :=
  k.react _ (k.congr s _ rfl rfl rfl h)

theorem cycleBoundary (s : State) (p : Plan) (heard : Bool) (h : P s) : P (s.cycleBoundary p heard) := by
  have h1 : P (State.requestMark { s with cycle := (s.cycleSteps p heard).1 } p) := by
    unfold State.requestMark
    split
    · exact k.congr s _ rfl rfl rfl h
    · exact k.congr s _ rfl rfl rfl h
  exact k.cycleOutput _ _ _ _ h1

theorem remoteBoundary (s : State) (h : P s) : P s.remoteBoundary := k.react _ (k.congr s _ rfl rfl rfl h)

theorem claimsBoundary (s : State) (p : Plan) (h : P s) : P (s.claimsBoundary p) :=
  k.react _ (k.claimBoundary s p h)

theorem blocksBoundary (s : State) (p : Plan) (heard : Bool) (n : Nat) (h : P s) :
    P (s.blocksBoundary p heard n) := by
  unfold State.blocksBoundary
  split
  · exact k.claimsBoundary _ p (k.remoteBoundary _ (k.cycleBoundary s p heard h))
  · exact k.remoteBoundary _ (k.claimsBoundary _ p (k.cycleBoundary s p heard h))
  · exact k.claimsBoundary _ p (k.cycleBoundary _ p heard (k.remoteBoundary s h))
  · exact k.cycleBoundary _ p heard (k.claimsBoundary _ p (k.remoteBoundary s h))
  · exact k.remoteBoundary _ (k.cycleBoundary _ p heard (k.claimsBoundary s p h))
  · exact k.cycleBoundary _ p heard (k.remoteBoundary _ (k.claimsBoundary s p h))

theorem planBoundary (s : State) (heard : Bool) (h : P s) : P (s.planBoundary heard) := by
  unfold State.planBoundary
  split
  · exact h
  · rename_i p _
    have h1 := k.blocksBoundary (s.draw 6).2 p heard (s.draw 6).1 (k.congr s _ rfl rfl rfl h)
    exact k.congr ((s.draw 6).2.blocksBoundary p heard (s.draw 6).1) _ rfl rfl rfl h1

theorem frameBoundary (s : State) (heard : Bool) (age : Nat) (o : StationId → Outcome) (h : P s) :
    P (s.frameBoundary heard age o) := by
  have e := (s.atBoundary_law age o).1
  have e1 : (s.atBoundary age o).ctrl = s.ctrl := (congrArg State.ctrl e).trans rfl
  have e2 : (s.atBoundary age o).claims = s.claims := (congrArg State.claims e).trans rfl
  have e3 : (s.atBoundary age o).seq = s.seq := (congrArg State.seq e).trans rfl
  have h1 : P (s.atBoundary age o) := k.congr s _ (by rw [e1]) (by rw [e2]) (by rw [e3]) h
  rw [State.frameBoundary_eq]
  exact k.congr ((s.atBoundary age o).planBoundary heard) _ rfl rfl rfl (k.planBoundary _ heard h1)

theorem runEnd (s : State) (len : Nat) (edge : Bool) (h : P s) : P (s.runEnd len edge) := by
  rw [State.runEnd_eq]
  repeat' split
  all_goals first
    | exact k.congr s _ rfl rfl rfl h
    | exact k.frameBoundary _ _ _ _ (k.congr s _ rfl rfl rfl h)

end ServeKeeps

set_option maxHeartbeats 1000000 in
/-- Every command keeps a property of mode, claim table and asserted service stage that each move of theirs keeps,
start-up reset among them. -/
theorem ServeKeeps.exec {P : State → Prop} (k : ServeKeeps P) (reset : ∀ u : State, P u.resetAll) (c : Instr)
    (s t : State) (e : Sys2Proof.Machine.exec c s = .next t) (h : P s) : P t := by
  have kc : ∀ u : State, u.ctrl.mode = s.ctrl.mode → u.claims.table = s.claims.table →
      u.seq.service = s.seq.service → P u := fun u h1 h2 h3 => k.congr s u h1 h2 h3 h
  have kr : ∀ u : State, u.ctrl.mode = s.ctrl.mode → u.claims.table = s.claims.table →
      u.seq.service = s.seq.service → P u.react := fun u h1 h2 h3 => k.react u (kc u h1 h2 h3)
  have kq : ∀ row levels, P (s.receiveRow row levels) := fun row levels => by
    obtain ⟨d, q⟩ := s.receiveRow_diag row levels
    rw [q]
    exact kc _ rfl rfl rfl
  cases c <;> (have e2 : _ = t := (by injection e); rw [← e2]; clear e e2)
  case startUpReset cause =>
    unfold State.startUpReset
    cases cause with
    | powerOn => exact k.congr s.resetAll _ rfl rfl rfl (reset s)
    | supplyFall => exact k.congr s.resetAll _ rfl rfl rfl (reset s)
    | resetLine held =>
      dsimp only
      split
      · exact reset _
      · exact kc _ rfl rfl rfl
    | supplyReached => exact kc _ rfl rfl rfl
    | resetLineHigh held => exact kc _ rfl rfl rfl
  case resetRelease =>
    rcases s.resetRelease_cases with ⟨hm, e⟩ | e
    · exact e ▸ k.react _ (k.enterMode _ _ (k.congr s _ rfl rfl rfl h))
    · rw [e]; exact h
  case frameTimerExpiry line =>
    unfold State.frameTimerExpiry
    dsimp only
    repeat' split
    all_goals first | with_reducible exact h | exact kc _ rfl rfl rfl
  case dominantRunEnd len edge =>
    unfold State.dominantRunEnd
    dsimp only
    repeat' split
    · exact k.runEnd _ _ _ (kc _ rfl rfl rfl)
    · exact kc _ rfl rfl rfl
  case joinWindowClose =>
    unfold State.joinWindowClose
    repeat' split
    all_goals first | with_reducible exact h | exact k.frameBoundary _ _ _ _ h
  case lineStuck run =>
    show P (s.lineStuck run)
    rw [State.lineStuck_eq]
    repeat' split
    · exact kc _ rfl rfl rfl
    · exact k.frameBoundary _ _ _ _ (kc _ rfl rfl rfl)
    · exact h
  case markDriveEnd =>
    unfold State.markDriveEnd
    repeat' split
    all_goals first | with_reducible exact h | (with_reducible refine kr _ ?_ ?_ ?_) <;> rfl | exact kc _ rfl rfl rfl
  case frameSlip =>
    unfold State.frameSlip
    repeat' split
    all_goals first | with_reducible exact h | (with_reducible refine kr _ ?_ ?_ ?_) <;> rfl | exact kc _ rfl rfl rfl
  case recordTransmission =>
    unfold State.recordTransmission
    repeat' split
    all_goals first | with_reducible exact h | (with_reducible refine kr _ ?_ ?_ ?_) <;> rfl | exact kc _ rfl rfl rfl
  case recordTransmissionEnd =>
    unfold State.recordTransmissionEnd
    repeat' split
    all_goals first | with_reducible exact h | (with_reducible refine kr _ ?_ ?_ ?_) <;> rfl | exact kc _ rfl rfl rfl
  case collision m =>
    unfold State.collision
    repeat' split
    all_goals first | with_reducible exact h | (with_reducible refine kr _ ?_ ?_ ?_) <;> rfl | exact kc _ rfl rfl rfl
  case ownSlotEnd =>
    unfold State.ownSlotEnd
    repeat' split
    all_goals first | with_reducible exact h | (with_reducible refine kr _ ?_ ?_ ?_) <;> rfl | exact kc _ rfl rfl rfl
  case silentFaultHoldEnd =>
    unfold State.silentFaultHoldEnd
    repeat' split
    all_goals first | with_reducible exact h | (with_reducible refine kr _ ?_ ?_ ?_) <;> rfl | exact kc _ rfl rfl rfl
  case listenEnd =>
    unfold State.listenEnd
    repeat' split
    all_goals first | with_reducible exact h | (with_reducible refine kr _ ?_ ?_ ?_) <;> rfl | exact kc _ rfl rfl rfl
  case slotSilent k1 =>
    unfold State.slotSilent
    repeat' split
    all_goals first | with_reducible exact h | (with_reducible refine kr _ ?_ ?_ ?_) <;> rfl | exact kc _ rfl rfl rfl
  case slotReception k1 pos levels further =>
    unfold State.slotReception
    repeat' split
    all_goals first | with_reducible exact h | (with_reducible refine kr _ ?_ ?_ ?_) <;> rfl | exact kc _ rfl rfl rfl
  case peerClassification k1 a =>
    unfold State.peerClassification
    repeat' split
    all_goals first | with_reducible exact h | (with_reducible refine kr _ ?_ ?_ ?_) <;> rfl | exact kc _ rfl rfl rfl
  case startHoldEnd =>
    unfold State.startHoldEnd
    repeat' split
    all_goals first | with_reducible exact h | (with_reducible refine kr _ ?_ ?_ ?_) <;> rfl | exact kc _ rfl rfl rfl
  case requestedPatternChange =>
    unfold State.requestedPatternChange
    repeat' split
    all_goals first | with_reducible exact h | (with_reducible refine kr _ ?_ ?_ ?_) <;> rfl | exact kc _ rfl rfl rfl
  case initialLevel d =>
    unfold State.initialLevel
    repeat' split
    all_goals first | with_reducible exact h | (with_reducible refine kr _ ?_ ?_ ?_) <;> rfl | exact kc _ rfl rfl rfl
  case detectorFallingEdge d =>
    unfold State.detectorFallingEdge
    repeat' split
    all_goals first | with_reducible exact h | (with_reducible refine kr _ ?_ ?_ ?_) <;> rfl | exact kc _ rfl rfl rfl
  case pulseOccupancyEnd d =>
    unfold State.pulseOccupancyEnd
    repeat' split
    all_goals first | with_reducible exact h | (with_reducible refine kr _ ?_ ?_ ?_) <;> rfl | exact kc _ rfl rfl rfl
  case faultStuck d =>
    unfold State.faultStuck
    repeat' split
    all_goals first | with_reducible exact h | (with_reducible refine kr _ ?_ ?_ ?_) <;> rfl | exact kc _ rfl rfl rfl
  case faultSilent d =>
    unfold State.faultSilent
    repeat' split
    all_goals first | with_reducible exact h | (with_reducible refine kr _ ?_ ?_ ?_) <;> rfl | exact kc _ rfl rfl rfl
  case flashPhaseChange =>
    unfold State.flashPhaseChange
    repeat' split
    all_goals first | with_reducible exact h | (with_reducible refine kr _ ?_ ?_ ?_) <;> rfl | exact kc _ rfl rfl rfl
  case settleEnd c =>
    unfold State.settleEnd
    repeat' split
    all_goals first | with_reducible exact h | (with_reducible refine kr _ ?_ ?_ ?_) <;> rfl | exact kc _ rfl rfl rfl
  case uncommandedOn c =>
    unfold State.uncommandedOn
    repeat' split
    all_goals first | with_reducible exact h | (with_reducible refine kr _ ?_ ?_ ?_) <;> rfl | exact kc _ rfl rfl rfl
  case lampOut c =>
    unfold State.lampOut
    repeat' split
    all_goals first | with_reducible exact h | (with_reducible refine kr _ ?_ ?_ ?_) <;> rfl | exact kc _ rfl rfl rfl
  case transferRetry =>
    unfold State.transferRetry
    repeat' split
    all_goals first | with_reducible exact h | (with_reducible refine kr _ ?_ ?_ ?_) <;> rfl | exact kc _ rfl rfl rfl
  case diagReplyEnd =>
    unfold State.diagReplyEnd
    repeat' split
    all_goals first | with_reducible exact h | (with_reducible refine kr _ ?_ ?_ ?_) <;> rfl | exact kc _ rfl rfl rfl
  case stuckEnd =>
    unfold State.stuckEnd
    dsimp only
    repeat' split
    all_goals first | with_reducible exact h | (with_reducible refine kr _ ?_ ?_ ?_) <;> rfl | exact kc _ rfl rfl rfl
  case peerLost k1 =>
    unfold State.peerLost
    dsimp only
    repeat' split
    all_goals first | with_reducible exact h | (with_reducible refine kr _ ?_ ?_ ?_) <;> rfl | exact kc _ rfl rfl rfl
  case peerAbsent k1 =>
    unfold State.peerAbsent
    dsimp only
    repeat' split
    all_goals first | with_reducible exact h | (with_reducible refine kr _ ?_ ?_ ?_) <;> rfl | exact kc _ rfl rfl rfl
  case patternLineChange line level held =>
    unfold State.patternLineChange State.judgePair
    dsimp only
    repeat' split
    all_goals first | with_reducible exact h | (with_reducible refine kr _ ?_ ?_ ?_) <;> rfl | exact kc _ rfl rfl rfl
  case stationQuery l => exact kq _ l
  case groupsQuery l => exact kq _ l
  case detectorsQuery l => exact kq _ l
  case peersQuery l => exact kq _ l
  case claimsQuery l => exact kq _ l
  case faultsQuery l => exact kq _ l
  case countsQuery l => exact kq _ l
  case errorReply l => exact kq _ l
  case diagFramingError l => exact kq _ l
  case diagCharacterIgnored l => exact kq _ l
  case detectorInputChange d l => exact kc _ rfl rfl rfl
  case unsetWaitEnd =>
    unfold State.unsetWaitEnd
    repeat' split
    all_goals first | with_reducible exact h | exact k.cycleOutput _ _ _ _ (kc _ rfl rfl rfl)
  case divergenceAdoption =>
    unfold State.divergenceAdoption
    repeat' split
    all_goals first | with_reducible exact h | exact k.cycleOutput _ _ _ _ (kc _ rfl rfl rfl)
  case openGrant g =>
    unfold State.openGrant
    split
    · exact k.react _ (k.leaveRed s g h)
    · split
      · exact k.react s h
      · exact h
  case prepareEnd g =>
    unfold State.prepareEnd
    split
    · exact kr _ rfl rfl rfl
    · exact h
  case minGreenEnd g =>
    unfold State.minGreenEnd
    split
    · exact kr _ rfl rfl rfl
    · exact h
  case gapOut g =>
    unfold State.gapOut
    split
    · exact kr _ rfl rfl rfl
    · exact h
  case maxDone g =>
    unfold State.maxDoneEvent
    split
    · exact kr _ rfl rfl rfl
    · exact h
  case clearingEnd g =>
    unfold State.clearingEnd
    split
    · exact kr _ rfl rfl rfl
    · exact h
  case manualChange a b =>
    unfold State.manualChange
    dsimp only
    repeat' split
    all_goals first | (with_reducible refine k.react _ ?_; exact k.arbitrate _ (kc _ rfl rfl rfl)) | exact kc _ rfl rfl rfl
  case advancePress a b =>
    unfold State.advancePress
    dsimp only
    repeat' split
    all_goals first | (with_reducible refine k.react _ ?_; exact k.advance _ (kc _ rfl rfl rfl)) | exact kc _ rfl rfl rfl
  case detectorRisingEdge d =>
    unfold State.detectorRisingEdge
    repeat' split
    all_goals first | with_reducible exact h | (with_reducible refine k.react _ ?_; exact k.edgeByMode _ _ _ (kc _ rfl rfl rfl))
  case withdrawalDetected a b =>
    unfold State.withdrawalDetected
    dsimp only
    split
    · rename_i p e _ he
      split
      · split
        · exact k.react _ (k.arbitrated s _ (sublist_serves List.eraseP_sublist) h)
        · rename_i hn
          refine k.tabled s _ rfl rfl (sublist_serves List.eraseP_sublist) (eraseP_stands fun x hx => ?_) h
          have hx2 : s.findClaim a b = some x := hx
          rw [he] at hx2
          cases hx2
          exact hn
      · exact h
    · exact h
  case claimReady a b =>
    unfold State.claimReady
    repeat' split
    · exact h
    · exact k.react _ (k.arbitrated s _ (updFirst_serves (fun _ x => by cases x) _) h)
    · exact h
  case claimArrived a b =>
    unfold State.claimArrived
    dsimp only
    have hu : ∀ x : ClaimEntry, (x.arrive s.holdTicks).state = .serving →
        x.state = .serving ∧ (x.arrive s.holdTicks).stage = x.stage := by
      intro x hx
      unfold ClaimEntry.arrive at hx
      dsimp only at hx
      split at hx
      · cases hx
      · exact ⟨hx, rfl⟩
    repeat' split
    · exact h
    · exact k.react _ (k.arbitrated s _ (updFirst_serves hu _) h)
    · rename_i hw
      exact k.tabled s _ rfl rfl (updFirst_serves hu _) (arrive_stands _ _ _) h
    · exact h
  case holdEnd a b =>
    unfold State.holdEnd
    repeat' split
    · exact h
    · exact k.react _ (k.arbitrated s _ (updFirst_serves (fun _ x => by cases x) _) h)
    · exact h
  case claimLifetimeEnd a b =>
    unfold State.claimLifetimeEnd
    dsimp only
    split
    · exact h
    · rename_i e he
      split
      · split
        · exact k.react _ (k.arbitrated s _ (updFirst_serves (fun _ x => by cases x) _) h)
        · rename_i hn
          refine k.tabled s _ rfl rfl (updFirst_serves (fun _ x => by cases x) _) (updFirst_stands fun x hx => ?_) h
          have hx2 : s.findClaim a b = some x := hx
          rw [he] at hx2
          cases hx2
          exact hn
      · exact h
  case senseChange a b c =>
    unfold State.senseChange
    dsimp only
    repeat' split
    all_goals first | (with_reducible refine k.selfCheckFail _ _ ?_; exact kc _ rfl rfl rfl) | exact kc _ rfl rfl rfl
  case conflict a b =>
    unfold State.conflictEvent
    split
    · exact k.react _ (k.alsoRedOut _ _ (k.latchConflict s _ h))
    · exact h
  case greenInFlash g =>
    unfold State.greenInFlash
    split
    · exact k.react _ (k.latchConflict s _ h)
    · exact h
  case redOut g =>
    unfold State.redOutEvent
    split
    · exact k.react _ (k.alsoConflict _ _ (k.latchRedOut s _ h))
    · exact h
  case selfCheckPass =>
    unfold State.selfCheckPass
    split
    · exact k.react _ (k.enterJudged _ _ (kc _ rfl rfl rfl))
    · exact h
  case selfCheckSettleEnd =>
    unfold State.selfCheckSettleEnd
    dsimp only
    repeat' split
    all_goals first | with_reducible exact h | (with_reducible refine k.selfCheckFail _ _ ?_; exact kc _ rfl rfl rfl) | exact kc _ rfl rfl rfl
  case startFlashEnd =>
    unfold State.startFlashEnd
    split
    · exact k.react _ (k.enterJudged s _ h)
    · exact h
  case allRedEnd =>
    have h1 := k.react _ (k.enterMode s .running h)
    unfold State.allRedEnd
    dsimp only
    repeat' split
    · exact k.react _ (k.flashSet _ h1)
    · exact h1
    · exact h
  case flashRequestChange a b =>
    unfold State.flashRequestChange State.flashCleared
    dsimp only
    repeat' split
    · exact kc _ rfl rfl rfl
    · exact kc _ rfl rfl rfl
    · exact k.react _ (k.flashSet _ (kc _ rfl rfl rfl))
    · exact kr _ rfl rfl rfl
    · exact k.react _ (k.enterJudged _ _ (kc _ rfl rfl rfl))
    all_goals exact kr _ rfl rfl rfl
  case panelFaultReset a b =>
    unfold State.panelFaultReset
    dsimp only
    split
    · refine k.react _ ?_
      unfold State.faultResetOrders
      dsimp only
      split
      · exact k.enterMode _ _ (kc _ rfl rfl rfl)
      · exact kc _ rfl rfl rfl
    · exact kc _ rfl rfl rfl
  case planTransfer levels =>
    unfold State.planTransfer State.transferDone
    dsimp only
    repeat' split
    all_goals first | with_reducible exact h | exact k.planFault _ _ (kc _ rfl rfl rfl) | exact kc _ rfl rfl rfl
  case transferFailure levels =>
    unfold State.transferFailure State.transferFailed
    repeat' split
    all_goals first | with_reducible exact h | with_reducible exact k.planFault _ _ h | exact kc _ rfl rfl rfl
  case planValidation =>
    unfold State.planValidation
    split
    · split
      · exact k.react _ (k.enterMode _ _ (kc _ rfl rfl rfl))
      · exact k.planFault _ _ h
    · exact h


end Sys2Proof.Machine
end

