-- ==== Sys2Proof/Laws/ClaimBounds.lean ====
section
/-! SUPPORT. Laws/ClaimBounds.lean: the bounds of the claim lists through each step of the claim unit. -/

namespace Sys2Proof.Machine

theorem State.claimsSafe_iff (s : State) : s.claimsSafe ↔ s.claims.own.length ≤ 2 ∧ (s.claims.own.map (·.route)).Nodup ∧ s.claimIds.length ≤ 8 ∧ s.claimIds.Nodup := by
  unfold State.claimsSafe State.claimIds; rw [List.length_map]

theorem dropLast_length {p : ClaimEntry → Bool} {t : List ClaimEntry} (h : t.any p = true) : (dropLast p t).length + 1 = t.length := by
  unfold dropLast
  obtain ⟨a, ha, hp⟩ := List.any_eq_true.mp h
  rw [List.length_reverse, List.length_eraseP_of_mem (List.mem_reverse.mpr ha) hp, List.length_reverse]
  have : 0 < t.length := List.length_pos_of_mem ha
  omega

theorem append_ids {t : List ClaimEntry} {e : ClaimEntry} (h1 : t.length < 8) (h2 : (t.map fun e => (e.origin, e.serial)).Nodup)
    (h3 : (e.origin, e.serial) ∉ t.map fun e => (e.origin, e.serial)) :
    ((t ++ [e]).map fun e => (e.origin, e.serial)).length ≤ 8 ∧ ((t ++ [e]).map fun e => (e.origin, e.serial)).Nodup := by
  refine ⟨by simp; omega, ?_⟩
  rw [List.map_append, List.nodup_append]
  refine ⟨h2, by simp, ?_⟩
  intro a ha b hb hab
  simp at hb
  subst hb
  subst hab
  exact h3 ha

theorem State.findClaim_fresh {s : State} {o : StationId} {n : Fin 16} (h : (s.findClaim o n).isSome = false) : (o, n) ∉ s.claimIds := by
  unfold State.claimIds
  intro hm
  obtain ⟨e, he, hx⟩ := List.mem_map.mp hm
  unfold State.findClaim at h
  have h2 : s.claims.table.find? (·.is o n) = none := by simpa using h
  have h3 := List.find?_eq_none.mp h2 e he
  cases hx
  exact h3 e.is_self

theorem State.offer_claimsSafe (s : State) (e : ClaimEntry) (h : s.claimsSafe) (hf : (e.origin, e.serial) ∉ s.claimIds) : (s.offer e).claimsSafe := by
  obtain ⟨a, b, c, d⟩ := h
  unfold State.offer
  dsimp only
  split
  · rename_i hl
    have := append_ids hl d hf
    exact ⟨a, b, by have := this.1; rw [List.length_map] at this; exact this, this.2⟩
  · split
    · rename_i hd
      have hlen := dropLast_length hd.2
      have hsub := (dropLast_sub ClaimEntry.displaceable s.claims.table)
      have := append_ids (t := dropLast ClaimEntry.displaceable s.claims.table) (e := e) (by omega) (List.Nodup.sublist (hsub.map _) d)
        (fun hm => hf ((hsub.map _).subset hm))
      exact ⟨a, b, by have := this.1; rw [List.length_map] at this; exact this, this.2⟩
    · exact ⟨a, b, c, d⟩

theorem State.offerOwn_claimsSafe (s : State) (p : Plan) (o : OwnClaim) (h : s.claimsSafe) : (s.offerOwn p o).claimsSafe := by
  unfold State.offerOwn
  split
  · exact h
  · split
    · exact h
    · rename_i hf
      exact State.offer_claimsSafe s _ h (State.findClaim_fresh (by rw [Bool.not_eq_true] at hf; exact hf))

theorem State.offerPeer_claimsSafe (s : State) (p : Plan) (k : StationId) (c : ClaimField) (h : s.claimsSafe) : (s.offerPeer p k c).claimsSafe := by
  unfold State.offerPeer
  split
  · exact h
  · split
    · exact h
    · rename_i hf
      exact State.offer_claimsSafe s _ h (State.findClaim_fresh (by simpa using hf))

theorem foldl_claimsSafe {α : Type} (l : List α) (f : State → α → State) (hf : ∀ s a, s.claimsSafe → (f s a).claimsSafe) (s : State) (h : s.claimsSafe) :
   (l.foldl f s).claimsSafe := by
  induction l generalizing s with
  | nil => exact h
  | cons a l ih => exact ih _ (hf s a h)

theorem State.entry_claimsSafe (s : State) (p : Plan) (h : s.claimsSafe) : (s.entry p).claimsSafe := by
  unfold State.entry State.peerEntry
  refine foldl_claimsSafe _ _ (fun s o h => State.offerOwn_claimsSafe s p o h) _ (foldl_claimsSafe _ _ (fun s a h => ?_) _ h)
  unfold State.offerPublished
  split
  · exact State.offerPeer_claimsSafe s p _ _ h
  · exact h

theorem State.withdrawalMiss_id (s : State) (p : Plan) (e x : ClaimEntry) (h : s.withdrawalMiss p e = some x) : (x.origin, x.serial) = (e.origin, e.serial) := by
  unfold State.withdrawalMiss at h
  repeat' split at h
  all_goals first | (cases h; rfl) | cases h

theorem withdrawalDetection_sublist (s : State) (p : Plan) (t : List ClaimEntry) :
   List.Sublist ((t.filterMap (s.withdrawalMiss p)).map fun e => (e.origin, e.serial)) (t.map fun e => (e.origin, e.serial)) := by
  induction t with
  | nil => exact List.Sublist.slnil
  | cons e t ih =>
    rw [List.filterMap_cons]
    split
    · exact ih.cons _
    · rename_i x hx
      rw [List.map_cons, List.map_cons, State.withdrawalMiss_id s p e x hx]
      exact ih.cons_cons _

theorem State.claimSteps_claimsSafe (s : State) (p : Plan) (h : s.claimsSafe) : (s.claimSteps p).claimsSafe := by
  have sub : ∀ (u : State) (t : List ClaimEntry), u.claimsSafe → List.Sublist (t.map fun e => (e.origin, e.serial)) u.claimIds → (u.withClaimTable t).claimsSafe := by
    intro u t hu hs
    obtain ⟨a, b, c, d⟩ := (State.claimsSafe_iff u).mp hu
    exact (State.claimsSafe_iff _).mpr ⟨a, b, Nat.le_trans hs.length_le c, List.Nodup.sublist hs d⟩
  have h1 : (s.originLoss p).claimsSafe := sub s _ h (List.Sublist.map _ List.filter_sublist)
  have h2 : ((s.originLoss p).withdrawalDetection p).claimsSafe := sub _ _ h1 (withdrawalDetection_sublist _ _ _)
  have h3 : (((s.originLoss p).withdrawalDetection p).clearedBy p).claimsSafe := by
    obtain ⟨a, b, c, d⟩ := h2
    refine ⟨?_, ?_, c, d⟩
    · unfold State.clearedBy; dsimp only; rw [List.length_map]; exact a
    · unfold State.clearedBy; dsimp only; rw [List.map_map]; exact b
  have h4 : ((((s.originLoss p).withdrawalDetection p).clearedBy p).originWithdrawal p).claimsSafe := by
    generalize ((s.originLoss p).withdrawalDetection p).clearedBy p = u at h3
    obtain ⟨a, b, c, d⟩ := h3
    unfold State.originWithdrawal
    dsimp only
    refine ⟨?_, ?_, ?_, ?_⟩
    · exact Nat.le_trans (List.length_filter_le _ _) a
    · exact List.Nodup.sublist (List.Sublist.map _ List.filter_sublist) b
    · exact Nat.le_trans (List.length_filter_le _ _) c
    · exact List.Nodup.sublist (List.Sublist.map _ List.filter_sublist) d
  exact State.entry_claimsSafe _ p h4

end Sys2Proof.Machine
end

