-- ==== Sys2Proof/Laws/Quiet.lean ====
section
/-! SUPPORT. Laws/Quiet.lean: the commands that leave the line, the peers, the cycle unit, the plan, ACT and the remote detectors as they are, and those that change the line interface alone. -/

namespace Sys2Proof.Machine

/-- `t` has the plan, line, peers, cycle unit, remote detectors, latched flags and ACT of `s`. -/
def State.core (s t : State) : Prop :=
  t.act = s.act ∧ t.plan = s.plan ∧ t.line = s.line ∧ t.peers = s.peers ∧ t.cycle = s.cycle ∧
  t.remotes = s.remotes ∧ t.latched = s.latched

theorem State.follows.core {s t : State} (h : s.follows t) : s.core t :=
  ⟨h.act_eq, h.plan_eq, h.line_eq, h.peers_eq, h.cycle_eq, h.remotes_eq, h.latched_eq⟩

theorem State.core.trans {s t u : State} (h : s.core t) (k : t.core u) : s.core u := by
  obtain ⟨h0, h1, h2, h3, h4, h5, h6⟩ := h
  obtain ⟨k0, k1, k2, k3, k4, k5, k6⟩ := k
  exact ⟨k0.trans h0, k1.trans h1, k2.trans h2, k3.trans h3, k4.trans h4, k5.trans h5, k6.trans h6⟩

theorem State.core_refl (s : State) : s.core s := ⟨rfl, rfl, rfl, rfl, rfl, rfl, rfl⟩

/-- `P` looks at the core of a state alone. -/
structure CoreKeeps (P : State → Prop) : Prop where
  core : ∀ s t : State, s.core t → P s → P t

namespace CoreKeeps

variable {P : State → Prop} (k : CoreKeeps P)

include k

theorem congr (s t : State) (h0 : t.act = s.act) (h1 : t.plan = s.plan) (h2 : t.line = s.line)
    (h3 : t.peers = s.peers) (h4 : t.cycle = s.cycle) (h5 : t.remotes = s.remotes)
    (h6 : t.latched = s.latched) (h : P s) : P t := k.core s t ⟨h0, h1, h2, h3, h4, h5, h6⟩ h

theorem react (s : State) (h : P s) : P s.react := k.core s _ s.react_follows.core h

theorem arbitrate (s : State) (h : P s) : P s.arbitrate := k.core s _ s.arbitrate_follows.core h

theorem advance (s : State) (h : P s) : P s.advance := k.core s _ s.advance_follows.core h

theorem enterMode (s : State) (m : Mode) (h : P s) : P (s.enterMode m) := k.core s _ (s.enterMode_follows m).core h

theorem enterJudged (s : State) (m : Mode) (h : P s) : P (s.enterJudged m) :=
  k.core s _ (s.enterJudged_follows m).core h

theorem flashSet (s : State) (h : P s) : P s.flashSet := k.core s _ s.flashSet_follows.core h

theorem leaveRed (s : State) (g : GroupId) (h : P s) : P (s.leaveRed g) := k.core s _ (s.leaveRed_follows g).core h

theorem enterGreen (s : State) (g : GroupId) (h : P s) : P (s.enterGreen g) :=
  k.core s _ (s.enterGreen_follows g).core h

theorem faultEvent (s : State) (r : Reason) (h : P s) : P (s.faultEvent r) := by
  unfold State.faultEvent
  split
  · exact k.congr s _ rfl rfl rfl rfl rfl rfl rfl h
  · exact k.enterMode _ _ (k.congr s _ rfl rfl rfl rfl rfl rfl rfl h)

theorem selfCheckFail (s : State) (c : ChanId) (h : P s) : P (s.selfCheckFail c) :=
  k.react _ (k.faultEvent _ _ (k.congr s _ rfl rfl rfl rfl rfl rfl rfl h))

theorem latchConflict (s : State) (c : ConflictCause) (h : P s) : P (s.latchConflict c) := by
  unfold State.latchConflict
  split
  · exact h
  · exact k.faultEvent _ _ (k.congr s _ rfl rfl rfl rfl rfl rfl rfl h)

theorem latchRedOut (s : State) (g : GroupId) (h : P s) : P (s.latchRedOut g) := by
  unfold State.latchRedOut
  split
  · exact h
  · exact k.faultEvent _ _ (k.congr s _ rfl rfl rfl rfl rfl rfl rfl h)

theorem alsoRedOut (l : List GroupId) (s : State) (h : P s) : P (s.alsoRedOut l) := by
  cases l with
  | nil => exact h
  | cons g l => exact k.latchRedOut _ _ (k.congr s _ rfl rfl rfl rfl rfl rfl rfl h)

theorem alsoConflict (l : List (GroupId × GroupId)) (s : State) (h : P s) : P (s.alsoConflict l) := by
  cases l with
  | nil => exact h
  | cons g l => exact k.latchConflict _ _ (k.congr s _ rfl rfl rfl rfl rfl rfl rfl h)

theorem planFault (s : State) (c : Nat) (h : P s) : P (s.planFault c) :=
  k.react _ (k.enterMode _ _ (k.congr s _ rfl rfl rfl rfl rfl rfl rfl h))

theorem only {s t : State} (e : s.onlyClaims t) (h : P s) : P t := by
  unfold State.onlyClaims at e
  rw [e]
  exact k.congr s _ rfl rfl rfl rfl rfl rfl rfl h

theorem claimEdge (s : State) (n : RouteId) (q : Priority) (h : P s) : P (s.claimEdge n q) := by
  rcases s.claimEdge_cases n q with ⟨e, _⟩ | ⟨p, _, _, _, e⟩ | e
  · rw [e]
    exact h
  · rw [e]
    exact k.arbitrate _ (k.only (State.offerOwn_only _ p _) (k.congr s _ rfl rfl rfl rfl rfl rfl rfl h))
  · rw [e]
    exact k.congr s _ rfl rfl rfl rfl rfl rfl rfl h

theorem checkOut (s : State) (n : RouteId) (h : P s) : P (s.checkOut n) := by
  rcases s.checkOut_cases n with ⟨_, e⟩ | e | ⟨_, e⟩
  · rw [e]
    exact k.arbitrate _ (k.congr s _ rfl rfl rfl rfl rfl rfl rfl h)
  · rw [e]
    exact h
  · rw [e]
    exact k.congr s _ rfl rfl rfl rfl rfl rfl rfl h

theorem edgeByMode (s : State) (d : LocalId) (f : LocalDef) (h : P s) : P (s.edgeByMode d f) := by
  unfold State.edgeByMode
  split
  · exact h
  · exact h
  · exact k.congr s _ rfl rfl rfl rfl rfl rfl rfl h
  · exact k.claimEdge s _ _ h
  · exact k.checkOut s _ h

end CoreKeeps

/-- The commands that leave line, peers, cycle unit, plan, ACT and remote detectors as they are. -/
def quiet : Instr → Bool
  | .frameTimerExpiry _ | .markDriveEnd | .frameSlip | .recordTransmission |
    .recordTransmissionEnd | .collision _ | .ownSlotEnd | .silentFaultHoldEnd | .listenEnd | .stuckEnd |
    .slotSilent _ | .slotReception _ _ _ _ | .peerClassification _ _ | .peerLost _ | .peerAbsent _ | .startHoldEnd |
    .unsetWaitEnd | .divergenceAdoption | .patternLineChange _ _ _ | .requestedPatternChange | .dominantRunEnd _ _ | .joinWindowClose | .lineStuck _ | .startUpReset _ |
    .resetRelease | .planValidation => false
  | _ => true

/-- The commands that change the line interface alone. -/
def lineOnly : Instr → Bool
  | .frameTimerExpiry _ | .markDriveEnd | .frameSlip | .recordTransmission |
    .recordTransmissionEnd | .collision _ | .ownSlotEnd | .silentFaultHoldEnd | .listenEnd | .stuckEnd |
    .slotSilent _ | .slotReception _ _ _ _ => true
  | _ => false

theorem exec_lineOnly (c : Instr) (s t : State) (hq : lineOnly c = true) (e : exec c s = .next t) :
    t = { s with line := t.line } := by
  cases c <;> first
    | (cases hq; done)
    | (have e2 : _ = t := (by injection e); rw [← e2]; clear e e2 hq)
  case frameTimerExpiry line =>
    unfold State.frameTimerExpiry
    dsimp only
    repeat' split
    all_goals rfl
  case markDriveEnd =>
    unfold State.markDriveEnd
    repeat' split
    all_goals rfl
  case frameSlip =>
    unfold State.frameSlip
    repeat' split
    all_goals rfl
  case recordTransmission =>
    unfold State.recordTransmission
    repeat' split
    all_goals rfl
  case recordTransmissionEnd =>
    unfold State.recordTransmissionEnd
    repeat' split
    all_goals rfl
  case collision m =>
    unfold State.collision
    repeat' split
    all_goals rfl
  case ownSlotEnd =>
    unfold State.ownSlotEnd
    repeat' split
    all_goals rfl
  case silentFaultHoldEnd =>
    unfold State.silentFaultHoldEnd
    repeat' split
    all_goals rfl
  case listenEnd =>
    unfold State.listenEnd
    repeat' split
    all_goals rfl
  case stuckEnd =>
    unfold State.stuckEnd
    dsimp only
    repeat' split
    all_goals rfl
  case slotSilent k1 =>
    unfold State.slotSilent
    repeat' split
    all_goals rfl
  case slotReception k1 pos levels further =>
    unfold State.slotReception
    repeat' split
    all_goals rfl

set_option maxHeartbeats 1000000 in
/-- A quiet command keeps a property of the core. -/
theorem CoreKeeps.exec {P : State → Prop} (k : CoreKeeps P) (c : Instr) (s t : State) (hq : quiet c = true)
    (e : Sys2Proof.Machine.exec c s = .next t) (h : P s) : P t := by
  have kc : ∀ u : State, u.act = s.act → u.plan = s.plan → u.line = s.line → u.peers = s.peers →
      u.cycle = s.cycle → u.remotes = s.remotes → u.latched = s.latched → P u :=
    fun u h0 h1 h2 h3 h4 h5 h6 => k.congr s u h0 h1 h2 h3 h4 h5 h6 h
  have kr : ∀ u : State, u.act = s.act → u.plan = s.plan → u.line = s.line → u.peers = s.peers →
      u.cycle = s.cycle → u.remotes = s.remotes → u.latched = s.latched → P u.react :=
    fun u h0 h1 h2 h3 h4 h5 h6 => k.react u (kc u h0 h1 h2 h3 h4 h5 h6)
  have kq : ∀ row levels, P (s.receiveRow row levels) := fun row levels => by
    obtain ⟨d, q⟩ := s.receiveRow_diag row levels
    rw [q]
    exact kc _ rfl rfl rfl rfl rfl rfl rfl
  cases c <;> first
    | (cases hq; done)
    | (have e2 : _ = t := (by injection e); rw [← e2]; clear e e2 hq)
  case initialLevel d =>
    unfold State.initialLevel
    repeat' split
    all_goals first | with_reducible exact h | (with_reducible refine kr _ ?_ ?_ ?_ ?_ ?_ ?_ ?_) <;> rfl | exact kc _ rfl rfl rfl rfl rfl rfl rfl
  case detectorFallingEdge d =>
    unfold State.detectorFallingEdge
    repeat' split
    all_goals first | with_reducible exact h | (with_reducible refine kr _ ?_ ?_ ?_ ?_ ?_ ?_ ?_) <;> rfl | exact kc _ rfl rfl rfl rfl rfl rfl rfl
  case pulseOccupancyEnd d =>
    unfold State.pulseOccupancyEnd
    repeat' split
    all_goals first | with_reducible exact h | (with_reducible refine kr _ ?_ ?_ ?_ ?_ ?_ ?_ ?_) <;> rfl | exact kc _ rfl rfl rfl rfl rfl rfl rfl
  case faultStuck d =>
    unfold State.faultStuck
    repeat' split
    all_goals first | with_reducible exact h | (with_reducible refine kr _ ?_ ?_ ?_ ?_ ?_ ?_ ?_) <;> rfl | exact kc _ rfl rfl rfl rfl rfl rfl rfl
  case faultSilent d =>
    unfold State.faultSilent
    repeat' split
    all_goals first | with_reducible exact h | (with_reducible refine kr _ ?_ ?_ ?_ ?_ ?_ ?_ ?_) <;> rfl | exact kc _ rfl rfl rfl rfl rfl rfl rfl
  case flashPhaseChange =>
    unfold State.flashPhaseChange
    repeat' split
    all_goals first | with_reducible exact h | (with_reducible refine kr _ ?_ ?_ ?_ ?_ ?_ ?_ ?_) <;> rfl | exact kc _ rfl rfl rfl rfl rfl rfl rfl
  case settleEnd c =>
    unfold State.settleEnd
    repeat' split
    all_goals first | with_reducible exact h | (with_reducible refine kr _ ?_ ?_ ?_ ?_ ?_ ?_ ?_) <;> rfl | exact kc _ rfl rfl rfl rfl rfl rfl rfl
  case uncommandedOn c =>
    unfold State.uncommandedOn
    repeat' split
    all_goals first | with_reducible exact h | (with_reducible refine kr _ ?_ ?_ ?_ ?_ ?_ ?_ ?_) <;> rfl | exact kc _ rfl rfl rfl rfl rfl rfl rfl
  case lampOut c =>
    unfold State.lampOut
    repeat' split
    all_goals first | with_reducible exact h | (with_reducible refine kr _ ?_ ?_ ?_ ?_ ?_ ?_ ?_) <;> rfl | exact kc _ rfl rfl rfl rfl rfl rfl rfl
  case transferRetry =>
    unfold State.transferRetry
    repeat' split
    all_goals first | with_reducible exact h | (with_reducible refine kr _ ?_ ?_ ?_ ?_ ?_ ?_ ?_) <;> rfl | exact kc _ rfl rfl rfl rfl rfl rfl rfl
  case diagReplyEnd =>
    unfold State.diagReplyEnd
    repeat' split
    all_goals first | with_reducible exact h | (with_reducible refine kr _ ?_ ?_ ?_ ?_ ?_ ?_ ?_) <;> rfl | exact kc _ rfl rfl rfl rfl rfl rfl rfl
  case stationQuery l => exact kq _ l
  case groupsQuery l => exact kq _ l
  case detectorsQuery l => exact kq _ l
  case peersQuery l => exact kq _ l
  case claimsQuery l => exact kq _ l
  case faultsQuery l => exact kq _ l
  case countsQuery l => exact kq _ l
  case errorReply l => exact kq _ l
  case diagFramingError l => exact kq _ l
  case diagCharacterIgnored l => exact kq _ l
  case detectorInputChange d l => exact kc _ rfl rfl rfl rfl rfl rfl rfl
  case openGrant g =>
    unfold State.openGrant
    split
    · exact k.react _ (k.leaveRed s g h)
    · split
      · exact k.react s h
      · exact h
  case prepareEnd g =>
    unfold State.prepareEnd
    split
    · exact k.react _ (k.enterGreen s g h)
    · exact h
  case minGreenEnd g =>
    unfold State.minGreenEnd
    split
    · exact kr _ rfl rfl rfl rfl rfl rfl rfl
    · exact h
  case gapOut g =>
    unfold State.gapOut
    split
    · exact kr _ rfl rfl rfl rfl rfl rfl rfl
    · exact h
  case maxDone g =>
    unfold State.maxDoneEvent
    split
    · exact kr _ rfl rfl rfl rfl rfl rfl rfl
    · exact h
  case clearingEnd g =>
    unfold State.clearingEnd
    split
    · exact kr _ rfl rfl rfl rfl rfl rfl rfl
    · exact h
  case manualChange a b =>
    unfold State.manualChange
    dsimp only
    repeat' split
    all_goals first | (with_reducible refine k.react _ ?_; exact k.arbitrate _ (kc _ rfl rfl rfl rfl rfl rfl rfl)) | exact kc _ rfl rfl rfl rfl rfl rfl rfl
  case advancePress a b =>
    unfold State.advancePress
    dsimp only
    repeat' split
    all_goals first | (with_reducible refine k.react _ ?_; exact k.advance _ (kc _ rfl rfl rfl rfl rfl rfl rfl)) | exact kc _ rfl rfl rfl rfl rfl rfl rfl
  case detectorRisingEdge d =>
    unfold State.detectorRisingEdge
    repeat' split
    all_goals first | with_reducible exact h | (with_reducible refine k.react _ ?_; exact k.edgeByMode _ _ _ (kc _ rfl rfl rfl rfl rfl rfl rfl))
  case withdrawalDetected a b =>
    unfold State.withdrawalDetected
    dsimp only
    repeat' split
    all_goals first | with_reducible exact h | (with_reducible refine k.react _ ?_; exact k.arbitrate _ (kc _ rfl rfl rfl rfl rfl rfl rfl)) | exact kc _ rfl rfl rfl rfl rfl rfl rfl
  case claimReady a b =>
    unfold State.claimReady
    repeat' split
    all_goals first | with_reducible exact h | (with_reducible refine k.react _ ?_; exact k.arbitrate _ (kc _ rfl rfl rfl rfl rfl rfl rfl))
  case claimArrived a b =>
    unfold State.claimArrived
    dsimp only
    repeat' split
    all_goals first | with_reducible exact h | (with_reducible refine k.react _ ?_; exact k.arbitrate _ (kc _ rfl rfl rfl rfl rfl rfl rfl)) | exact kc _ rfl rfl rfl rfl rfl rfl rfl
  case holdEnd a b =>
    unfold State.holdEnd
    repeat' split
    all_goals first | with_reducible exact h | (with_reducible refine k.react _ ?_; exact k.arbitrate _ (kc _ rfl rfl rfl rfl rfl rfl rfl))
  case claimLifetimeEnd a b =>
    unfold State.claimLifetimeEnd
    dsimp only
    repeat' split
    all_goals first | with_reducible exact h | (with_reducible refine k.react _ ?_; exact k.arbitrate _ (kc _ rfl rfl rfl rfl rfl rfl rfl)) | exact kc _ rfl rfl rfl rfl rfl rfl rfl
  case senseChange a b c =>
    unfold State.senseChange
    dsimp only
    repeat' split
    all_goals first | (with_reducible refine k.selfCheckFail _ _ ?_; exact kc _ rfl rfl rfl rfl rfl rfl rfl) | exact kc _ rfl rfl rfl rfl rfl rfl rfl
  case conflict a b =>
    unfold State.conflictEvent
    split
    · exact k.react _ (k.alsoRedOut _ _ (k.latchConflict s _ h))
    · exact h
  case greenInFlash g =>
    unfold State.greenInFlash
    split
    · exact k.react _ (k.latchConflict s _ h)
    · exact h
  case redOut g =>
    unfold State.redOutEvent
    split
    · exact k.react _ (k.alsoConflict _ _ (k.latchRedOut s _ h))
    · exact h
  case selfCheckPass =>
    unfold State.selfCheckPass
    split
    · exact k.react _ (k.enterJudged _ _ (kc _ rfl rfl rfl rfl rfl rfl rfl))
    · exact h
  case selfCheckSettleEnd =>
    unfold State.selfCheckSettleEnd
    dsimp only
    repeat' split
    all_goals first | with_reducible exact h | (with_reducible refine k.selfCheckFail _ _ ?_; exact kc _ rfl rfl rfl rfl rfl rfl rfl) | exact kc _ rfl rfl rfl rfl rfl rfl rfl
  case startFlashEnd =>
    unfold State.startFlashEnd
    split
    · exact k.react _ (k.enterJudged s _ h)
    · exact h
  case allRedEnd =>
    have h1 := k.react _ (k.enterMode s .running h)
    unfold State.allRedEnd
    dsimp only
    repeat' split
    · exact k.react _ (k.flashSet _ h1)
    · exact h1
    · exact h
  case flashRequestChange a b =>
    unfold State.flashRequestChange State.flashCleared
    dsimp only
    repeat' split
    · exact kc _ rfl rfl rfl rfl rfl rfl rfl
    · exact kc _ rfl rfl rfl rfl rfl rfl rfl
    · exact k.react _ (k.flashSet _ (kc _ rfl rfl rfl rfl rfl rfl rfl))
    · exact kr _ rfl rfl rfl rfl rfl rfl rfl
    · exact k.react _ (k.enterJudged _ _ (kc _ rfl rfl rfl rfl rfl rfl rfl))
    all_goals exact kr _ rfl rfl rfl rfl rfl rfl rfl
  case panelFaultReset a b =>
    unfold State.panelFaultReset
    dsimp only
    split
    · refine k.react _ ?_
      unfold State.faultResetOrders
      dsimp only
      split
      · exact k.enterMode _ _ (kc _ rfl rfl rfl rfl rfl rfl rfl)
      · exact kc _ rfl rfl rfl rfl rfl rfl rfl
    · exact kc _ rfl rfl rfl rfl rfl rfl rfl
  case planTransfer levels =>
    unfold State.planTransfer State.transferDone
    dsimp only
    repeat' split
    all_goals first | with_reducible exact h | exact k.planFault _ _ (kc _ rfl rfl rfl rfl rfl rfl rfl) | exact kc _ rfl rfl rfl rfl rfl rfl rfl
  case transferFailure levels =>
    unfold State.transferFailure State.transferFailed
    repeat' split
    all_goals first | with_reducible exact h | with_reducible exact k.planFault _ _ h | exact kc _ rfl rfl rfl rfl rfl rfl rfl

/-- A quiet command leaves the core of the state. -/
theorem exec_quiet (c : Instr) (s t : State) (hq : quiet c = true) (e : exec c s = .next t) : s.core t :=
  CoreKeeps.exec (P := s.core) ⟨fun _ _ h k => k.trans h⟩ c s t hq e s.core_refl

end Sys2Proof.Machine
end

