-- ==== Sys2Proof/Laws/CycleClock.lean ====
section
/-! SUPPORT. Laws/CycleClock.lean: the law of the cycle position through each part of a boundary. -/

namespace Sys2Proof.Machine

/-- A SET position lies below C of a coordinated pattern, an UNSET one reads 0 (R40, R41). -/
def Cycle.law (pl : Option Plan) (c : Cycle) : Prop :=
  (∀ p, pl = some p → ∀ i, 0 < p.cycleLength.nth i) ∧ (c.set = false → c.position = 0) ∧
  (c.set = true → ∃ p, pl = some p ∧ c.active ≠ 0 ∧ c.position < p.cOf c.active)

theorem Plan.cOf_pos {p : Plan} (h : ∀ i, 0 < p.cycleLength.nth i) {a : PatternId} (ha : a ≠ 0) : 0 < p.cOf a := by
  unfold Plan.cOf coordinated
  have : 0 < a.val := by
    rcases Nat.eq_zero_or_pos a.val with h0 | h0
    · exact absurd (Fin.ext h0) ha
    · exact h0
  rw [dif_pos this]
  exact h _

theorem Cycle.setClock_law {p : Plan} {c : Cycle} (h : Cycle.law (some p) c) (ha : c.active ≠ 0) : Cycle.law (some p) c.setClock :=
  ⟨h.1, nofun, fun _ => ⟨p, rfl, ha, Plan.cOf_pos (h.1 p rfl) ha⟩⟩

theorem Cycle.law_congr {pl} {c d : Cycle} (h : Cycle.law pl c) (h1 : d.set = c.set) (h2 : d.position = c.position) (h3 : d.active = c.active) : Cycle.law pl d := by
  unfold Cycle.law; rw [h1, h2, h3]; exact h

theorem Cycle.advance_law {p : Plan} {c : Cycle} (h : Cycle.law (some p) c) (hs : c.set = true) : Cycle.law (some p) (c.advance (p.cOf c.active)) := by
  obtain ⟨a, b, d⟩ := h
  obtain ⟨p', hp, ha, hlt⟩ := d hs
  cases hp
  refine ⟨a, fun x => ?_, fun _ => ⟨p, rfl, ha, ?_⟩⟩
  · have x2 : c.set = false := x
    rw [hs] at x2; cases x2
  · show (if c.position + 1 < p.cOf c.active then c.position + 1 else 0) < p.cOf c.active
    split
    · assumption
    · exact Plan.cOf_pos (a p rfl) ha

theorem Cycle.positionStep_law {p : Plan} {c : Cycle} (heard : Bool) (h : Cycle.law (some p) c) : Cycle.law (some p) (c.positionStep (p.cOf c.active) heard) := by
  unfold Cycle.positionStep
  split
  · exact h
  · rename_i ha
    split
    · rename_i hs
      split
      · unfold Cycle.hearMark
        dsimp only
        split
        · refine ⟨h.1, fun _ => rfl, fun _ => ⟨p, rfl, ha, Plan.cOf_pos (h.1 p rfl) ha⟩⟩
        · exact Cycle.law_congr (Cycle.advance_law h hs) rfl rfl rfl
      · exact Cycle.advance_law h hs
    · split
      · exact Cycle.setClock_law h ha
      · split
        · exact Cycle.law_congr h rfl rfl rfl
        · exact Cycle.setClock_law h ha

theorem Cycle.positionStep_active (c : Cycle) (n heard) : (c.positionStep n heard).active = c.active := by
  unfold Cycle.positionStep Cycle.hearMark Cycle.setClock Cycle.advance; dsimp only; repeat' split
  all_goals rfl

theorem Cycle.divergenceStep_keep (c : Cycle) (q) : (c.divergenceStep q).1.set = c.set ∧ (c.divergenceStep q).1.position = c.position ∧ (c.divergenceStep q).1.active = c.active := by
  unfold Cycle.divergenceStep; repeat' split
  all_goals exact ⟨rfl, rfl, rfl⟩

theorem Cycle.adoptDivergent_law {pl} {c : Cycle} (q) (h : Cycle.law pl c) : Cycle.law pl (c.adoptDivergent q) := ⟨h.1, fun _ => rfl, nofun⟩

theorem Cycle.adoptAgreed_law {p : Plan} {c : Cycle} (h : Cycle.law (some p) c) : Cycle.law (some p) (c.adoptAgreed p) := by
  unfold Cycle.adoptAgreed
  dsimp only
  split
  · exact ⟨h.1, fun _ => rfl, nofun⟩
  · rename_i hr
    split
    · rename_i hc
      simp only [Bool.and_eq_true, beq_iff_eq] at hc
      refine ⟨h.1, h.2.1, fun hs => ?_⟩
      obtain ⟨p', hp, ha, hlt⟩ := h.2.2 hs
      cases hp
      exact ⟨p, rfl, hr, by rw [← hc.2]; exact hlt⟩
    · exact ⟨h.1, nofun, fun _ => ⟨p, rfl, hr, Plan.cOf_pos (h.1 p rfl) hr⟩⟩

theorem State.cycleSteps_law (s : State) (p : Plan) (heard) (h : Cycle.law (some p) s.cycle) : Cycle.law (some p) (s.cycleSteps p heard).1 := by
  unfold State.cycleSteps
  dsimp only
  have h2 : Cycle.law (some p) (s.cycle.positionStep (p.cOf s.cycle.active) heard).holdStep := Cycle.law_congr (Cycle.positionStep_law heard h) rfl rfl rfl
  have h3 : Cycle.law (some p) (((s.cycle.positionStep (p.cOf s.cycle.active) heard).holdStep).divergenceStep s.majority).1 :=
    Cycle.law_congr h2 (Cycle.divergenceStep_keep _ _).1 (Cycle.divergenceStep_keep _ _).2.1 (Cycle.divergenceStep_keep _ _).2.2
  split
  · split
    · exact Cycle.adoptDivergent_law _ h3
    · exact h3
  · split
    · exact Cycle.adoptAgreed_law h3
    · exact h3

theorem State.frameBoundary_cycleLaw (s : State) (h a o) (hs : Cycle.law s.plan s.cycle) : Cycle.law (s.frameBoundary h a o).plan (s.frameBoundary h a o).cycle := by
  have ht : s.boundaryTaken (s.frameBoundary h a o) s.line h a o := s.frameBoundary_taken s.line h a o
  obtain ⟨_, _, _, _, _, _, _, _, _, _, _, hn, hp, _, _, _, _, _, hpl, _⟩ := ht
  rw [hpl]
  cases hh : s.plan with
  | none =>
    have e : (s.frameBoundary h a o).cycle = s.cycle := (congrArg State.cycle (hn hh)).trans rfl
    rw [e]; rw [hh] at hs; exact hs
  | some p =>
    have e : (s.frameBoundary h a o).cycle = (State.cycleSteps { s with peers := (s.frameBoundary h a o).peers } p h).1 := (hp p hh).1
    rw [e]
    rw [hh] at hs
    exact State.cycleSteps_law _ p h hs

end Sys2Proof.Machine
end

