-- ==== Sys2Proof/Laws/Detectors.lean ====
section
/-! SUPPORT. Laws/Detectors.lean: when a detector's events are due, and a rising edge as one update. -/

namespace Sys2Proof.Machine

theorem Det.edgeDue_of {s : State} {d : LocalId} {f : LocalDef} (h2 : (s.dets.nth d).initial = true)
   (hn : (s.dets.nth d).raw ≠ (s.dets.nth d).level) (h5 : 625 * f.tDF ≤ (s.dets.nth d).filt) : (s.dets.nth d).edgeDue f = true := by
  unfold Det.edgeDue LocalDef.filterTicks
  simp [h2, hn, tenMs, h5]

theorem State.detectorRisingEdge_eq {s : State} {d : LocalId} {f : LocalDef} (h1 : s.localDef d = some f) (h2 : (s.dets.nth d).initial = true)
   (h3 : (s.dets.nth d).level = false) (h4 : (s.dets.nth d).raw = true) (h5 : 625 * f.tDF ≤ (s.dets.nth d).filt) :
   exec (.detectorRisingEdge d) s = .next ((s.updDet d (Det.rise f)).edgeByMode d f).react := by
  show Host.Outcome.next (s.detectorRisingEdge d) = _
  unfold State.detectorRisingEdge
  rw [h1]
  dsimp only
  rw [if_pos (by rw [Det.edgeDue_of h2 (by rw [h3, h4]; simp) h5, h3]; rfl)]

theorem Det.stuckDue_iff (f : LocalDef) (d : Det) :
    d.stuckDue f = true ↔ d.fault = .normal ∧ ∃ n, d.presence = some n ∧ minute * f.tMP ≤ n := by
  unfold Det.stuckDue
  generalize minute * f.tMP = k
  cases d.presence <;> simp

theorem Det.silentDue_iff (f : LocalDef) (d : Det) :
    d.silentDue f = true ↔ d.fault = .normal ∧ d.level = false ∧ ∃ n, d.silence = some n ∧ hour * f.tMSL ≤ n := by
  unfold Det.silentDue
  generalize hour * f.tMSL = k
  cases d.silence <;> cases d.level <;> simp

theorem minute_eq : minute = 3750000 := rfl

theorem hour_eq : hour = 225000000 := rfl

end Sys2Proof.Machine
end

