-- ==== Sys2Proof/Laws/Eligible.lean ====
section
/-! SUPPORT. Laws/Eligible.lean: the window in which a stage is eligible in coordinated operation. -/

namespace Sys2Proof.Machine

/-- tMIN of a stage is the largest of its groups that are not GREEN, 0 where there is none (R91). -/
theorem State.tMINOf_law (s : State) (t : StageId) :
    (∀ g, BitSet.has (s.stageGroups t) g = true → (s.groups.nth g).state ≠ .green →
      (s.groupPlan g).tMIN ≤ s.tMINOf t) ∧
    (s.tMINOf t = 0 ∨ ∃ g, BitSet.has (s.stageGroups t) g = true ∧ (s.groups.nth g).state ≠ .green ∧
      (s.groupPlan g).tMIN = s.tMINOf t) := by
  obtain ⟨_, h2, h3⟩ := foldl_max (fun g => BitSet.has (s.stageGroups t) g && !((s.groups.nth g).state == .green))
    (fun g => (s.groupPlan g).tMIN) (List.finRange 16) 0
  refine ⟨fun g h k => h2 g (List.mem_finRange g) (by simp [h, k]), ?_⟩
  rcases h3 with h3 | ⟨g, _, hp, he⟩
  · exact .inl h3
  · simp only [Bool.and_eq_true, Bool.not_eq_true', beq_eq_false_iff_ne] at hp
    exact .inr ⟨g, hp.1, hp.2, he⟩

/-- In isolated operation every stage is eligible, and the main stage always (R91). -/
theorem State.eligible_always {s : State} {t : StageId} (h : s.coordinatedOp = false ∨ s.mainStage = some t) :
    s.eligible t = true := by
  unfold State.eligible
  rcases h with h | h <;> rw [h] <;> simp

/-- The window of another stage in coordinated operation (R91). -/
theorem State.eligible_window {s : State} {t : StageId} {p : Plan} {d : PatternDef} (hp : s.plan = some p)
    (hd : p.patternOf s.cycle.active = some d) (hc : s.coordinatedOp = true) (hm : s.mainStage ≠ some t) :
    s.eligible t = true ↔ d.pREL ≤ s.localPosition ∧ s.localPosition + s.tMINOf t < d.pFO.nth t := by
  unfold State.eligible
  rw [hc, hp]
  simp only [hd]
  simp [hm]

end Sys2Proof.Machine
end

