-- ==== Sys2Proof/Laws/GroupKeeps.lean ====
section
/-! SUPPORT. Laws/GroupKeeps.lean: the ways in which the group table moves: a property of groups and plan that each of them keeps is kept by every command. -/

namespace Sys2Proof.Machine

/-- `P` looks at the groups, the plan and the station mode alone, and every move of a group within one mode but those
of its own times, the tick, the load and the reset keeps it. -/
structure GroupMoves (P : State → Prop) : Prop where
  congr : ∀ s t : State, t.groups = s.groups → t.plan = s.plan → t.ctrl.mode = s.ctrl.mode → P s → P t
  follow : ∀ s : State, P s → P s.follow
  request : ∀ (s : State) (t : StageId), P s → P (s.request t)
  leaveRed : ∀ (s : State) (g : GroupId), s.clearToOpen g = true → P s → P (s.leaveRed g)

namespace GroupMoves

variable {P : State → Prop} (k : GroupMoves P)

include k

theorem beginChange (s : State) (a b : StageId) (h : P s) : P (s.beginChange a b) :=
  k.request _ b (k.congr s _ rfl rfl rfl h)

theorem replaceChange (s : State) (c : Change) (b : StageId) (h : P s) : P (s.replaceChange c b) :=
  k.request _ b (k.congr s _ rfl rfl rfl h)

theorem startChange (s : State) (h : P s) : P s.startChange := by
  unfold State.startChange
  split
  · exact h
  · exact k.request _ _ (k.congr s _ rfl rfl rfl h)

theorem completeChange (s : State) (c : Change) (h : P s) : P (s.completeChange c) := by
  unfold State.completeChange
  generalize (if s.mainStage = some c.toStage then false else s.seq.release) = r
  cases c.replacement with
  | none => exact k.congr s _ rfl rfl rfl h
  | some t =>
    dsimp only
    split
    · exact k.congr s _ rfl rfl rfl h
    · exact k.beginChange _ _ _ (k.congr s _ rfl rfl rfl h)

theorem seqStep (s t : State) (e : s.seqStep = some t) (h : P s) : P t := by
  unfold State.seqStep at e
  split at e
  · cases e
  · rename_i c _
    split at e
    · cases e
      exact k.congr s _ rfl rfl rfl h
    · split at e
      · cases e
        exact k.completeChange s c h
      · cases e
  · split at e
    · rename_i d _ _
      cases hu : s.selectTarget d with
      | none => simp [hu] at e
      | some u =>
        rw [hu] at e
        cases e
        exact k.beginChange s d u h
    · cases e

theorem assertService (s : State) (c : StageId) (h : P s) : P (s.assertService c) := by
  unfold State.assertService
  split
  · exact h
  · split
    · exact h
    · exact k.beginChange s _ _ h
  · split
    · exact k.congr s _ rfl rfl rfl h
    · split
      · exact h
      · exact k.replaceChange s _ _ h

theorem setService (s : State) (new : Option StageId) (h : P s) : P (s.setService new) := by
  unfold State.setService
  split
  · exact h
  · cases new with
    | none => exact k.congr s _ rfl rfl rfl h
    | some c => exact k.assertService _ c (k.congr s _ rfl rfl rfl h)

theorem arbitrate (s : State) (h : P s) : P s.arbitrate :=
  k.setService _ _ (k.congr s _ rfl rfl rfl h)

theorem advance (s : State) (h : P s) : P s.advance := by
  unfold State.advance
  split
  · split
    · exact h
    · split
      · split
        · exact h
        · exact k.beginChange s _ _ h
      · exact h
    · split
      · exact h
      · split
        · split
          · exact h
          · exact k.replaceChange s _ _ h
        · exact h
  · exact h

/-- The mode is entered in two strokes: mode and force input first, which `P` outlives as `forced` says, then the
sequencer and what reads it. -/
theorem enterMode (s : State) (m : Mode)
    (forced : P (State.forceChange
      { s with ctrl := { s.ctrl with mode := m, timer := m.timerStart, wait := false } } s.ctrl.mode m)) :
    P (s.enterMode m) := by
  have hq : ∀ (t : State) (a b : Mode), P t → P (t.seqModeChange a b) := by
    intro t a b ht
    unfold State.seqModeChange
    split
    · exact k.startChange t ht
    · split
      · exact k.congr t _ rfl rfl rfl ht
      · exact ht
  have hc : ∀ t : State, P t → P (if m = .check then t.selfCheckStart else t) := by
    intro t ht
    split
    · exact k.congr t _ rfl rfl rfl ht
    · exact ht
  have h2 := k.arbitrate _ (hc _ (hq _ s.ctrl.mode m forced))
  refine k.congr _ (s.enterMode m) ?_ ?_ ?_ h2 <;> rfl

end GroupMoves

/-- Beside `GroupMoves`: an entry to a station mode keeps `P`. -/
structure GroupModeKeeps (P : State → Prop) : Prop extends GroupMoves P where
  enter : ∀ (s : State) (m : Mode), P s → P (s.enterMode m)

namespace GroupModeKeeps

variable {P : State → Prop} (k : GroupModeKeeps P)

include k

theorem followKeeps : FollowKeeps P where
  follow := k.follow
  draw := fun s _ h => k.congr s _ rfl rfl rfl h
  grant := k.leaveRed
  seq := k.seqStep
  flash := fun s _ h => k.enter s _ h
  lamps := fun s h => k.congr s _ rfl rfl rfl h

theorem react (s : State) (h : P s) : P s.react := k.followKeeps.react s h

theorem flashSet (s : State) (h : P s) : P s.flashSet := by
  unfold State.flashSet
  split
  · exact k.enter s _ h
  · exact k.enter s _ h
  · split
    · exact k.enter s _ h
    · exact k.congr s _ rfl rfl rfl h
  all_goals exact h

theorem enterJudged (s : State) (m : Mode) (h : P s) : P (s.enterJudged m) := by
  unfold State.enterJudged
  dsimp only
  split
  · exact k.flashSet _ (k.enter s m h)
  · exact k.enter s m h

theorem faultEvent (s : State) (r : Reason) (h : P s) : P (s.faultEvent r) := by
  unfold State.faultEvent
  split
  · exact k.congr s _ rfl rfl rfl h
  · exact k.enter _ _ (k.congr s _ rfl rfl rfl h)

theorem selfCheckFail (s : State) (c : ChanId) (h : P s) : P (s.selfCheckFail c) :=
  k.react _ (k.faultEvent _ _ (k.congr s _ rfl rfl rfl h))

theorem latchConflict (s : State) (c : ConflictCause) (h : P s) : P (s.latchConflict c) := by
  unfold State.latchConflict
  split
  · exact h
  · exact k.faultEvent _ _ (k.congr s _ rfl rfl rfl h)

theorem latchRedOut (s : State) (g : GroupId) (h : P s) : P (s.latchRedOut g) := by
  unfold State.latchRedOut
  split
  · exact h
  · exact k.faultEvent _ _ (k.congr s _ rfl rfl rfl h)

theorem alsoRedOut (l : List GroupId) (s : State) (h : P s) : P (s.alsoRedOut l) := by
  cases l with
  | nil => exact h
  | cons g l => exact k.latchRedOut _ _ (k.congr s _ rfl rfl rfl h)

theorem alsoConflict (l : List (GroupId × GroupId)) (s : State) (h : P s) : P (s.alsoConflict l) := by
  cases l with
  | nil => exact h
  | cons g l => exact k.latchConflict _ _ (k.congr s _ rfl rfl rfl h)

theorem planFault (s : State) (c : Nat) (h : P s) : P (s.planFault c) :=
  k.react _ (k.enter _ _ (k.congr s _ rfl rfl rfl h))

/-! ### The claim unit -/

theorem only {s t : State} (e : s.onlyClaims t) (h : P s) : P t := by
  unfold State.onlyClaims at e
  rw [e]
  exact k.congr s _ rfl rfl rfl h

theorem claimEdge (s : State) (n : RouteId) (q : Priority) (h : P s) : P (s.claimEdge n q) := by
  rcases s.claimEdge_cases n q with ⟨e, _⟩ | ⟨p, _, _, _, e⟩ | e
  · rw [e]
    exact h
  · rw [e]
    exact k.arbitrate _ (k.only (State.offerOwn_only _ p _) (k.congr s _ rfl rfl rfl h))
  · rw [e]
    exact k.congr s _ rfl rfl rfl h

theorem checkOut (s : State) (n : RouteId) (h : P s) : P (s.checkOut n) := by
  rcases s.checkOut_cases n with ⟨_, e⟩ | e | ⟨_, e⟩
  · rw [e]
    exact k.arbitrate _ (k.congr s _ rfl rfl rfl h)
  · rw [e]
    exact h
  · rw [e]
    exact k.congr s _ rfl rfl rfl h

theorem edgeByMode (s : State) (d : LocalId) (f : LocalDef) (h : P s) : P (s.edgeByMode d f) := by
  unfold State.edgeByMode
  split
  · exact h
  · exact h
  · exact k.congr s _ rfl rfl rfl h
  · exact k.claimEdge s _ _ h
  · exact k.checkOut s _ h

theorem claimBoundary (s : State) (p : Plan) (h : P s) : P (s.claimBoundary p) := by
  rw [State.claimBoundary_eq]
  have h1 := k.only (s.claimSteps_only p) h
  split
  · exact k.arbitrate _ h1
  · exact h1

/-! ### The frame boundary -/

theorem cycleOutput (s : State) (p : Plan) (c : Cycle) (d : Bool) (h : P s) : P (s.cycleOutput p c d) :=
  k.react _ (k.congr s _ rfl rfl rfl h)

theorem cycleBoundary (s : State) (p : Plan) (heard : Bool) (h : P s) : P (s.cycleBoundary p heard) := by
  have h1 : P (State.requestMark { s with cycle := (s.cycleSteps p heard).1 } p) := by
    unfold State.requestMark
    split
    · exact k.congr s _ rfl rfl rfl h
    · exact k.congr s _ rfl rfl rfl h
  exact k.cycleOutput _ _ _ _ h1

theorem remoteBoundary (s : State) (h : P s) : P s.remoteBoundary := k.react _ (k.congr s _ rfl rfl rfl h)

theorem claimsBoundary (s : State) (p : Plan) (h : P s) : P (s.claimsBoundary p) :=
  k.react _ (k.claimBoundary s p h)

theorem blocksBoundary (s : State) (p : Plan) (heard : Bool) (n : Nat) (h : P s) :
    P (s.blocksBoundary p heard n) := by
  unfold State.blocksBoundary
  split
  · exact k.claimsBoundary _ p (k.remoteBoundary _ (k.cycleBoundary s p heard h))
  · exact k.remoteBoundary _ (k.claimsBoundary _ p (k.cycleBoundary s p heard h))
  · exact k.claimsBoundary _ p (k.cycleBoundary _ p heard (k.remoteBoundary s h))
  · exact k.cycleBoundary _ p heard (k.claimsBoundary _ p (k.remoteBoundary s h))
  · exact k.remoteBoundary _ (k.cycleBoundary _ p heard (k.claimsBoundary s p h))
  · exact k.cycleBoundary _ p heard (k.remoteBoundary _ (k.claimsBoundary s p h))

theorem planBoundary (s : State) (heard : Bool) (h : P s) : P (s.planBoundary heard) := by
  unfold State.planBoundary
  split
  · exact h
  · rename_i p _
    have h1 := k.blocksBoundary (s.draw 6).2 p heard (s.draw 6).1 (k.congr s _ rfl rfl rfl h)
    exact k.congr ((s.draw 6).2.blocksBoundary p heard (s.draw 6).1) _ rfl rfl rfl h1

theorem frameBoundary (s : State) (heard : Bool) (age : Nat) (o : StationId → Outcome) (h : P s) :
    P (s.frameBoundary heard age o) := by
  have e := (s.atBoundary_law age o).1
  have eg : (s.atBoundary age o).groups = s.groups := (congrArg State.groups e).trans rfl
  have ep : (s.atBoundary age o).plan = s.plan := (congrArg State.plan e).trans rfl
  have em : (s.atBoundary age o).ctrl.mode = s.ctrl.mode := by
    rw [show (s.atBoundary age o).ctrl = s.ctrl from (congrArg State.ctrl e).trans rfl]
  have h1 : P (s.atBoundary age o) := k.congr s _ eg ep em h
  rw [State.frameBoundary_eq]
  exact k.congr ((s.atBoundary age o).planBoundary heard) _ rfl rfl rfl (k.planBoundary _ heard h1)

theorem runEnd (s : State) (len : Nat) (edge : Bool) (h : P s) : P (s.runEnd len edge) := by
  rw [State.runEnd_eq]
  repeat' split
  all_goals first
    | exact k.congr s _ rfl rfl rfl h
    | exact k.frameBoundary _ _ _ _ (k.congr s _ rfl rfl rfl h)

end GroupModeKeeps

/-- The ends of a group's own times, the tick and start-up reset keep `P`. -/
structure GroupTimes (P : State → Prop) : Prop where
  prepareEnd : ∀ (s : State) (g : GroupId), s.prepareDue g = true → P s → P (s.enterGreen g)
  minGreen : ∀ (s : State) (g : GroupId), s.minGreenDue g = true → P s →
    P (s.updGroup g (Group.minGreen (s.gapTimed g)))
  gapOut : ∀ (s : State) (g : GroupId), s.gapDue g = true → P s →
    P (s.updGroup g fun r => { r with gapped := true })
  maxDone : ∀ (s : State) (g : GroupId), s.maxDue g = true → P s →
    P (s.updGroup g fun r => { r with maxDone := true })
  clearingEnd : ∀ (s : State) (g : GroupId), s.clearingDue g = true → P s → P (s.updGroup g Group.toRed)
  reset : ∀ s : State, P s.resetAll
  tick : ∀ s : State, P s → P s.tick

/-- `P` looks at the groups, the plan and the mode alone, and every move of theirs but the load keeps it. -/
structure GroupModeTimesKeep (P : State → Prop) : Prop extends GroupModeKeeps P, GroupTimes P

set_option maxHeartbeats 1000000 in
/-- Every command keeps a property of groups, plan and mode that each move of theirs, and the load where it is due,
keep. -/
theorem GroupModeTimesKeep.exec {P : State → Prop} (k : GroupModeTimesKeep P) (c : Instr) (s t : State)
    (load : ∀ p, s.checking = true → checkImage s.planRead.buffer = .ok p → P (s.writePlan p))
    (e : Sys2Proof.Machine.exec c s = .next t) (h : P s) : P t := by
  have kc : ∀ u : State, u.groups = s.groups → u.plan = s.plan → u.ctrl.mode = s.ctrl.mode → P u :=
    fun u h1 h2 h3 => k.congr s u h1 h2 h3 h
  have kr : ∀ u : State, u.groups = s.groups → u.plan = s.plan → u.ctrl.mode = s.ctrl.mode → P u.react :=
    fun u h1 h2 h3 => k.react u (kc u h1 h2 h3)
  have kd : ∀ u : State, P u → P u.lampSync := fun u hu => k.congr u _ rfl rfl rfl hu
  have kq : ∀ row levels, P (s.receiveRow row levels) := fun row levels => by
    obtain ⟨d, q⟩ := s.receiveRow_diag row levels
    rw [q]
    exact kc _ rfl rfl rfl
  cases c <;> (have e2 : _ = t := (by injection e); rw [← e2]; clear e e2)
  case startUpReset cause =>
    unfold State.startUpReset
    cases cause with
    | powerOn => exact k.congr s.resetAll _ rfl rfl rfl (k.reset s)
    | supplyFall => exact k.congr s.resetAll _ rfl rfl rfl (k.reset s)
    | resetLine held =>
      dsimp only
      split
      · exact k.reset _
      · exact kc _ rfl rfl rfl
    | supplyReached => exact kc _ rfl rfl rfl
    | resetLineHigh held => exact kc _ rfl rfl rfl
  case resetRelease =>
    rcases s.resetRelease_cases with ⟨hm, e⟩ | e
    · exact e ▸ k.react _ (k.enter _ _ (k.congr s _ rfl rfl rfl h))
    · rw [e]; exact h
  case frameTimerExpiry line =>
    unfold State.frameTimerExpiry
    dsimp only
    repeat' split
    all_goals first | with_reducible exact h | exact kc _ rfl rfl rfl
  case dominantRunEnd len edge =>
    unfold State.dominantRunEnd
    dsimp only
    repeat' split
    · exact k.runEnd _ _ _ (kc _ rfl rfl rfl)
    · exact kc _ rfl rfl rfl
  case joinWindowClose =>
    unfold State.joinWindowClose
    repeat' split
    all_goals first | with_reducible exact h | exact k.frameBoundary _ _ _ _ h
  case lineStuck run =>
    show P (s.lineStuck run)
    rw [State.lineStuck_eq]
    repeat' split
    · exact kc _ rfl rfl rfl
    · exact k.frameBoundary _ _ _ _ (kc _ rfl rfl rfl)
    · exact h
  case markDriveEnd =>
    unfold State.markDriveEnd
    repeat' split
    all_goals first | with_reducible exact h | (with_reducible refine kr _ ?_ ?_ ?_) <;> rfl | exact kc _ rfl rfl rfl
  case frameSlip =>
    unfold State.frameSlip
    repeat' split
    all_goals first | with_reducible exact h | (with_reducible refine kr _ ?_ ?_ ?_) <;> rfl | exact kc _ rfl rfl rfl
  case recordTransmission =>
    unfold State.recordTransmission
    repeat' split
    all_goals first | with_reducible exact h | (with_reducible refine kr _ ?_ ?_ ?_) <;> rfl | exact kc _ rfl rfl rfl
  case recordTransmissionEnd =>
    unfold State.recordTransmissionEnd
    repeat' split
    all_goals first | with_reducible exact h | (with_reducible refine kr _ ?_ ?_ ?_) <;> rfl | exact kc _ rfl rfl rfl
  case collision m =>
    unfold State.collision
    repeat' split
    all_goals first | with_reducible exact h | (with_reducible refine kr _ ?_ ?_ ?_) <;> rfl | exact kc _ rfl rfl rfl
  case ownSlotEnd =>
    unfold State.ownSlotEnd
    repeat' split
    all_goals first | with_reducible exact h | (with_reducible refine kr _ ?_ ?_ ?_) <;> rfl | exact kc _ rfl rfl rfl
  case silentFaultHoldEnd =>
    unfold State.silentFaultHoldEnd
    repeat' split
    all_goals first | with_reducible exact h | (with_reducible refine kr _ ?_ ?_ ?_) <;> rfl | exact kc _ rfl rfl rfl
  case listenEnd =>
    unfold State.listenEnd
    repeat' split
    all_goals first | with_reducible exact h | (with_reducible refine kr _ ?_ ?_ ?_) <;> rfl | exact kc _ rfl rfl rfl
  case slotSilent k1 =>
    unfold State.slotSilent
    repeat' split
    all_goals first | with_reducible exact h | (with_reducible refine kr _ ?_ ?_ ?_) <;> rfl | exact kc _ rfl rfl rfl
  case slotReception k1 pos levels further =>
    unfold State.slotReception
    repeat' split
    all_goals first | with_reducible exact h | (with_reducible refine kr _ ?_ ?_ ?_) <;> rfl | exact kc _ rfl rfl rfl
  case peerClassification k1 a =>
    unfold State.peerClassification
    repeat' split
    all_goals first | with_reducible exact h | (with_reducible refine kr _ ?_ ?_ ?_) <;> rfl | exact kc _ rfl rfl rfl
  case startHoldEnd =>
    unfold State.startHoldEnd
    repeat' split
    all_goals first | with_reducible exact h | (with_reducible refine kr _ ?_ ?_ ?_) <;> rfl | exact kc _ rfl rfl rfl
  case requestedPatternChange =>
    unfold State.requestedPatternChange
    repeat' split
    all_goals first | with_reducible exact h | (with_reducible refine kr _ ?_ ?_ ?_) <;> rfl | exact kc _ rfl rfl rfl
  case initialLevel d =>
    unfold State.initialLevel
    repeat' split
    all_goals first | with_reducible exact h | (with_reducible refine kr _ ?_ ?_ ?_) <;> rfl | exact kc _ rfl rfl rfl
  case detectorFallingEdge d =>
    unfold State.detectorFallingEdge
    repeat' split
    all_goals first | with_reducible exact h | (with_reducible refine kr _ ?_ ?_ ?_) <;> rfl | exact kc _ rfl rfl rfl
  case pulseOccupancyEnd d =>
    unfold State.pulseOccupancyEnd
    repeat' split
    all_goals first | with_reducible exact h | (with_reducible refine kr _ ?_ ?_ ?_) <;> rfl | exact kc _ rfl rfl rfl
  case faultStuck d =>
    unfold State.faultStuck
    repeat' split
    all_goals first | with_reducible exact h | (with_reducible refine kr _ ?_ ?_ ?_) <;> rfl | exact kc _ rfl rfl rfl
  case faultSilent d =>
    unfold State.faultSilent
    repeat' split
    all_goals first | with_reducible exact h | (with_reducible refine kr _ ?_ ?_ ?_) <;> rfl | exact kc _ rfl rfl rfl
  case flashPhaseChange =>
    unfold State.flashPhaseChange
    repeat' split
    all_goals first | with_reducible exact h | (with_reducible refine kr _ ?_ ?_ ?_) <;> rfl | exact kc _ rfl rfl rfl
  case settleEnd c =>
    unfold State.settleEnd
    repeat' split
    all_goals first | with_reducible exact h | (with_reducible refine kr _ ?_ ?_ ?_) <;> rfl | exact kc _ rfl rfl rfl
  case uncommandedOn c =>
    unfold State.uncommandedOn
    repeat' split
    all_goals first | with_reducible exact h | (with_reducible refine kr _ ?_ ?_ ?_) <;> rfl | exact kc _ rfl rfl rfl
  case lampOut c =>
    unfold State.lampOut
    repeat' split
    all_goals first | with_reducible exact h | (with_reducible refine kr _ ?_ ?_ ?_) <;> rfl | exact kc _ rfl rfl rfl
  case transferRetry =>
    unfold State.transferRetry
    repeat' split
    all_goals first | with_reducible exact h | (with_reducible refine kr _ ?_ ?_ ?_) <;> rfl | exact kc _ rfl rfl rfl
  case diagReplyEnd =>
    unfold State.diagReplyEnd
    repeat' split
    all_goals first | with_reducible exact h | (with_reducible refine kr _ ?_ ?_ ?_) <;> rfl | exact kc _ rfl rfl rfl
  case stuckEnd =>
    unfold State.stuckEnd
    dsimp only
    repeat' split
    all_goals first | with_reducible exact h | (with_reducible refine kr _ ?_ ?_ ?_) <;> rfl | exact kc _ rfl rfl rfl
  case peerLost k1 =>
    unfold State.peerLost
    dsimp only
    repeat' split
    all_goals first | with_reducible exact h | (with_reducible refine kr _ ?_ ?_ ?_) <;> rfl | exact kc _ rfl rfl rfl
  case peerAbsent k1 =>
    unfold State.peerAbsent
    dsimp only
    repeat' split
    all_goals first | with_reducible exact h | (with_reducible refine kr _ ?_ ?_ ?_) <;> rfl | exact kc _ rfl rfl rfl
  case patternLineChange line level held =>
    unfold State.patternLineChange State.judgePair
    dsimp only
    repeat' split
    all_goals first | with_reducible exact h | (with_reducible refine kr _ ?_ ?_ ?_) <;> rfl | exact kc _ rfl rfl rfl
  case stationQuery l => exact kq _ l
  case groupsQuery l => exact kq _ l
  case detectorsQuery l => exact kq _ l
  case peersQuery l => exact kq _ l
  case claimsQuery l => exact kq _ l
  case faultsQuery l => exact kq _ l
  case countsQuery l => exact kq _ l
  case errorReply l => exact kq _ l
  case diagFramingError l => exact kq _ l
  case diagCharacterIgnored l => exact kq _ l
  case detectorInputChange d l => exact kc _ rfl rfl rfl
  case unsetWaitEnd =>
    unfold State.unsetWaitEnd
    repeat' split
    all_goals first | with_reducible exact h | exact k.cycleOutput _ _ _ _ (kc _ rfl rfl rfl)
  case divergenceAdoption =>
    unfold State.divergenceAdoption
    repeat' split
    all_goals first | with_reducible exact h | exact k.cycleOutput _ _ _ _ (kc _ rfl rfl rfl)
  case openGrant g =>
    unfold State.openGrant
    split
    · rename_i hg
      unfold State.grantable at hg
      rw [Bool.and_eq_true] at hg
      exact k.react _ (k.leaveRed s g hg.1 h)
    · split
      · exact k.react s h
      · exact h
  case prepareEnd g =>
    unfold State.prepareEnd
    split
    · rename_i hd
      exact k.react _ (k.prepareEnd s g hd h)
    · exact h
  case minGreenEnd g =>
    unfold State.minGreenEnd
    split
    · rename_i hd
      exact k.react _ (kd _ (k.minGreen s g hd h))
    · exact h
  case gapOut g =>
    unfold State.gapOut
    split
    · rename_i hd
      exact k.react _ (kd _ (k.gapOut s g hd h))
    · exact h
  case maxDone g =>
    unfold State.maxDoneEvent
    split
    · rename_i hd
      exact k.react _ (kd _ (k.maxDone s g hd h))
    · exact h
  case clearingEnd g =>
    unfold State.clearingEnd
    split
    · rename_i hd
      exact k.react _ (kd _ (k.clearingEnd s g hd h))
    · exact h
  case manualChange a b =>
    unfold State.manualChange
    dsimp only
    repeat' split
    all_goals first | (with_reducible refine k.react _ ?_; exact k.arbitrate _ (kc _ rfl rfl rfl)) | exact kc _ rfl rfl rfl
  case advancePress a b =>
    unfold State.advancePress
    dsimp only
    repeat' split
    all_goals first | (with_reducible refine k.react _ ?_; exact k.advance _ (kc _ rfl rfl rfl)) | exact kc _ rfl rfl rfl
  case detectorRisingEdge d =>
    unfold State.detectorRisingEdge
    repeat' split
    all_goals first | with_reducible exact h | (with_reducible refine k.react _ ?_; exact k.edgeByMode _ _ _ (kc _ rfl rfl rfl))
  case withdrawalDetected a b =>
    unfold State.withdrawalDetected
    dsimp only
    repeat' split
    all_goals first | with_reducible exact h | (with_reducible refine k.react _ ?_; exact k.arbitrate _ (kc _ rfl rfl rfl)) | exact kc _ rfl rfl rfl
  case claimReady a b =>
    unfold State.claimReady
    repeat' split
    all_goals first | with_reducible exact h | (with_reducible refine k.react _ ?_; exact k.arbitrate _ (kc _ rfl rfl rfl))
  case claimArrived a b =>
    unfold State.claimArrived
    dsimp only
    repeat' split
    all_goals first | with_reducible exact h | (with_reducible refine k.react _ ?_; exact k.arbitrate _ (kc _ rfl rfl rfl)) | exact kc _ rfl rfl rfl
  case holdEnd a b =>
    unfold State.holdEnd
    repeat' split
    all_goals first | with_reducible exact h | (with_reducible refine k.react _ ?_; exact k.arbitrate _ (kc _ rfl rfl rfl))
  case claimLifetimeEnd a b =>
    unfold State.claimLifetimeEnd
    dsimp only
    repeat' split
    all_goals first | with_reducible exact h | (with_reducible refine k.react _ ?_; exact k.arbitrate _ (kc _ rfl rfl rfl)) | exact kc _ rfl rfl rfl
  case senseChange a b c =>
    unfold State.senseChange
    dsimp only
    repeat' split
    all_goals first | (with_reducible refine k.selfCheckFail _ _ ?_; exact kc _ rfl rfl rfl) | exact kc _ rfl rfl rfl
  case conflict a b =>
    unfold State.conflictEvent
    split
    · exact k.react _ (k.alsoRedOut _ _ (k.latchConflict s _ h))
    · exact h
  case greenInFlash g =>
    unfold State.greenInFlash
    split
    · exact k.react _ (k.latchConflict s _ h)
    · exact h
  case redOut g =>
    unfold State.redOutEvent
    split
    · exact k.react _ (k.alsoConflict _ _ (k.latchRedOut s _ h))
    · exact h
  case selfCheckPass =>
    unfold State.selfCheckPass
    split
    · exact k.react _ (k.enterJudged _ _ (kc _ rfl rfl rfl))
    · exact h
  case selfCheckSettleEnd =>
    unfold State.selfCheckSettleEnd
    dsimp only
    repeat' split
    all_goals first | with_reducible exact h | (with_reducible refine k.selfCheckFail _ _ ?_; exact kc _ rfl rfl rfl) | exact kc _ rfl rfl rfl
  case startFlashEnd =>
    unfold State.startFlashEnd
    split
    · exact k.react _ (k.enterJudged s _ h)
    · exact h
  case allRedEnd =>
    have h1 := k.react _ (k.enter s .running h)
    unfold State.allRedEnd
    dsimp only
    repeat' split
    · exact k.react _ (k.flashSet _ h1)
    · exact h1
    · exact h
  case flashRequestChange a b =>
    unfold State.flashRequestChange State.flashCleared
    dsimp only
    repeat' split
    · exact kc _ rfl rfl rfl
    · exact kc _ rfl rfl rfl
    · exact k.react _ (k.flashSet _ (kc _ rfl rfl rfl))
    · exact kr _ rfl rfl rfl
    · exact k.react _ (k.enterJudged _ _ (kc _ rfl rfl rfl))
    all_goals exact kr _ rfl rfl rfl
  case panelFaultReset a b =>
    unfold State.panelFaultReset
    dsimp only
    split
    · refine k.react _ ?_
      unfold State.faultResetOrders
      dsimp only
      split
      · exact k.enter _ _ (kc _ rfl rfl rfl)
      · exact kc _ rfl rfl rfl
    · exact kc _ rfl rfl rfl
  case planTransfer levels =>
    unfold State.planTransfer State.transferDone
    dsimp only
    repeat' split
    all_goals first | with_reducible exact h | exact k.planFault _ _ (kc _ rfl rfl rfl) | exact kc _ rfl rfl rfl
  case transferFailure levels =>
    unfold State.transferFailure State.transferFailed
    repeat' split
    all_goals first | with_reducible exact h | with_reducible exact k.planFault _ _ h | exact kc _ rfl rfl rfl
  case planValidation =>
    unfold State.planValidation
    split
    · rename_i hc
      split
      · rename_i p hp
        exact k.react _ (k.enter _ _ (load p hc hp))
      · exact k.planFault _ _ h
    · exact h

/-! ### Properties that do not look at the mode -/

/-- `P` looks at the groups and the plan alone, and every move of a group but those of its own times, the tick,
the load and the reset keeps it. -/
structure GroupKeeps (P : State → Prop) : Prop where
  congr : ∀ s t : State, t.groups = s.groups → t.plan = s.plan → P s → P t
  follow : ∀ s : State, P s → P s.follow
  request : ∀ (s : State) (t : StageId), P s → P (s.request t)
  leaveRed : ∀ (s : State) (g : GroupId), s.clearToOpen g = true → P s → P (s.leaveRed g)
  force : ∀ (s : State) (f : Force), P s → P (s.forceAll f)

theorem GroupKeeps.modeKeeps {P : State → Prop} (k : GroupKeeps P) : GroupModeKeeps P :=
  have m : GroupMoves P :=
    { congr := fun s t h1 h2 _ h => k.congr s t h1 h2 h, follow := k.follow, request := k.request
      leaveRed := k.leaveRed }
  { toGroupMoves := m
    enter := fun s a h => m.enterMode s a (by
      unfold State.forceChange
      split
      · exact k.congr s _ rfl rfl h
      · exact k.force _ _ (k.congr s _ rfl rfl h)) }

/-- Beside `GroupKeeps`: the ends of a group's own times, the tick and start-up reset keep `P`. -/
structure GroupTimesKeep (P : State → Prop) : Prop extends GroupKeeps P, GroupTimes P

/-- Every command keeps a property of groups and plan that each move of a group, and the load where it is due,
keep. -/
theorem GroupTimesKeep.exec {P : State → Prop} (k : GroupTimesKeep P) (c : Instr) (s t : State)
    (load : ∀ p, s.checking = true → checkImage s.planRead.buffer = .ok p → P (s.writePlan p))
    (e : Sys2Proof.Machine.exec c s = .next t) (h : P s) : P t :=
  GroupModeTimesKeep.exec { toGroupModeKeeps := k.toGroupKeeps.modeKeeps, toGroupTimes := k.toGroupTimes } c s t
    load e h

end Sys2Proof.Machine
end

