-- ==== Sys2Proof/Laws/PlanLoad.lean ====
section
/-! SUPPORT. Laws/PlanLoad.lean: the checks of a plan image and the end of the read. -/

namespace Sys2Proof.Machine

theorem within_iff (a b x : Nat) : within a b x = true ↔ a ≤ x ∧ x ≤ b := by unfold within; simp

/-- An image without a content code has its values in range and a symmetric matrix (R190). -/
theorem Image.contentCode_none (m : Image) (h : m.contentCode = none) : m.valueRange = true ∧ m.conflictMatrix = true := by
  unfold Image.contentCode at h
  by_cases h1 : m.valueRange = true
  · by_cases h2 : m.conflictMatrix = true
    · exact ⟨h1, h2⟩
    · simp only [h1, h2, Bool.not_true, Bool.not_false, Bool.false_eq_true, if_false, if_true] at h
      split at h
      · cases h
      · split at h <;> cases h
  · simp [h1] at h

theorem foldl_sum (l : List Byte) : ∀ a : Byte, (l.foldl (· + ·) a).toNat = (a.toNat + (l.map BitVec.toNat).sum) % 256 := by
  induction l with
  | nil => intro a; simp; exact (Nat.mod_eq_of_lt a.isLt).symm
  | cons b l ih =>
    intro a
    rw [List.foldl_cons, ih, BitVec.toNat_add, List.map_cons, List.sum_cons]
    omega

theorem flatMap_length {α : Type} (l : List α) (f : α → List Byte) (n : Nat) (h : ∀ x, (f x).length = n) : (l.flatMap f).length = n * l.length := by
  induction l with
  | nil => simp
  | cons a l ih => rw [List.flatMap_cons, List.length_append, h, ih, List.length_cons, Nat.mul_add]; omega

/-- A plan that passes the checks is that of an image without a content code (R190). -/
theorem checkImage_ok {bs : List Byte} {p : Plan} (h : checkImage bs = .ok p) : ∃ m : Image, m.contentCode = none ∧ p = m.plan := by
  unfold checkImage at h
  dsimp only at h
  split at h
  · split at h
    · cases h
    · split at h
      · cases h
      · rename_i m _
        split at h
        · cases h
        · rename_i hm; cases h; exact ⟨m, hm, rfl⟩
  · cases h

/-- A failed read adds PLAN to the reasons, as the first fault where there were none, and writes the code (R172,
R177). -/
theorem State.planFault_ctrl (s : State) (code : Nat) :
    (s.planFault code).ctrl.reasons = { s.ctrl.reasons with plan := true } ∧
    (s.planFault code).ctrl.firstFault = (if s.ctrl.reasons.isEmpty then some .plan else s.ctrl.firstFault) ∧
    (s.planFault code).ctrl.planFault = code ∧ (s.planFault code).ctrl.mode = .faultFlash := by
  unfold State.planFault; dsimp only
  generalize hu : ({ s with planRead := s.planRead.finish .failed, ctrl := { s.ctrl with planFault := code } } : State) = u
  have hc := State.react_ctrl_of_not_waiting (s := (u.addReason .plan).enterMode .faultFlash) (by rw [State.enterMode_ctrl])
  rw [hc, State.enterMode_ctrl, ← hu]
  exact ⟨rfl, rfl, rfl, rfl⟩

/-- A failed read ends in FAULT_FLASH with its code (R172, R190, R191). -/
theorem State.planFault_law (s : State) (code : Nat) :
    (s.planFault code).planRead = s.planRead.finish .failed ∧ (s.planFault code).ctrl.mode = .faultFlash ∧
    (s.planFault code).ctrl.planFault = code ∧ (s.planFault code).ctrl.reasons.plan = true ∧
    (s.planFault code).plan = s.plan ∧ (s.planFault code).line = s.line ∧ (s.planFault code).peers = s.peers ∧
    (s.planFault code).cycle = s.cycle ∧ (s.planFault code).dets = s.dets := by
  unfold State.planFault; dsimp only
  generalize hu : ({ s with planRead := s.planRead.finish .failed, ctrl := { s.ctrl with planFault := code } } : State) = u
  have hf := (State.enterMode_follows (u.addReason .plan) .faultFlash).trans (State.react_follows _)
  have hc := State.react_ctrl_of_not_waiting (s := (u.addReason .plan).enterMode .faultFlash) (by rw [State.enterMode_ctrl])
  refine ⟨?_, ?_, ?_, ?_, ?_, ?_, ?_, ?_, ?_⟩
  · rw [hf.planRead_eq, ← hu]; rfl
  · rw [hc, State.enterMode_ctrl]
  · rw [hf.ctrl_planFault_eq, ← hu]; rfl
  · rw [hf.ctrl_reasons_eq]; rfl
  · rw [hf.plan_eq, ← hu]; rfl
  · rw [hf.line_eq, ← hu]; rfl
  · rw [hf.peers_eq, ← hu]; rfl
  · rw [hf.cycle_eq, ← hu]; rfl
  · rw [hf.dets_eq, ← hu]; rfl

/-- A transfer that succeeds does what comes of its bytes, and one that fails what comes of a failure; each row takes the
levels of its own outcome alone (R183). -/
theorem State.transfer_rows (s : State) (levels : List Bool) (h : s.transferring = true) :
    (∀ data, s.transferRun levels = .done data →
      s.planTransfer levels = s.transferDone data ∧ s.transferFailure levels = s) ∧
    (∀ cause, s.transferRun levels = .failed cause →
      s.planTransfer levels = s ∧ s.transferFailure levels = s.transferFailed) := by
  refine ⟨fun _ e => ⟨?_, ?_⟩, fun _ e => ⟨?_, ?_⟩⟩
  · unfold State.planTransfer; rw [if_pos h, e]
  · unfold State.transferFailure; rw [if_pos h, e]
  · unfold State.planTransfer; rw [if_pos h, e]
  · unfold State.transferFailure; rw [if_pos h, e]

end Sys2Proof.Machine
end

