-- ==== Sys2Proof/Laws/Groups.lean ====
section
/-! SUPPORT. Laws/Groups.lean: the regularity of a group record, and which moves give a group the right of way. -/

namespace Sys2Proof.Machine

theorem Group.clearGreen_regular (g : Group) (st : GState) : ({ g.clearGreen with state := st, held := .none, time := 0 } : Group).regular := by
  exact ⟨nofun, nofun, fun _ => ⟨rfl, rfl, rfl, rfl, rfl, rfl⟩, nofun⟩

theorem Group.openRequest_regular (g : Group) (h : g.regular) : g.openRequest.regular := by
  cases g with | mk st held t a b c d e f =>
  cases st <;> cases held <;> simp_all [Group.openRequest, Group.regular]

theorem Group.closeRequest_regular (g : Group) (h : g.regular) : g.closeRequest.regular := by
  cases g with | mk st held t a b c d e f =>
  cases st <;> cases held <;> cases a <;> simp_all [Group.closeRequest, Group.regular, Group.toClearing, Group.clearGreen]

theorem State.updGroup_regular (s : State) (g : GroupId) (f : Group → Group) (h : s.groupsRegular)
   (hf : (f (s.groups.nth g)).regular) : (s.updGroup g f).groupsRegular := by
  intro i
  show ((s.groups.upd g f).nth i).regular
  rw [Table.nth_upd]; split
  · rename_i e; subst e; exact hf
  · exact h i

theorem Group.toGreen_regular (g : Group) (n) : (g.toGreen n).regular := by
  cases g with | mk st held t a b c d e f =>
  cases held <;> simp [Group.toGreen, Group.regular, Group.clearGreen]

theorem State.judgeGreen_regular (s : State) (g : GroupId) (r : Group) (h : r.regular) : (s.judgeGreen g r).regular := by
  unfold State.judgeGreen
  split
  · rename_i hh
    obtain ⟨h1, h2, h3, h4⟩ := h
    dsimp only
    repeat' split
    all_goals
      refine ⟨fun x => ?_, fun x => ?_, fun x => ?_, fun x => ?_⟩ <;>
        first | exact h1 x | exact h2 x | exact absurd hh.1 x | exact h4 x | exact ⟨(h4 x).1, rfl⟩
  · exact h

theorem State.enterGreen_regular (s : State) (g) (h : s.groupsRegular) : (s.enterGreen g).groupsRegular := by
  intro i
  show ((s.groups.upd g _).nth i).regular
  rw [Table.nth_upd]; split
  · exact Group.toGreen_regular _ _
  · exact h i

theorem rightOfWay_upd (s : State) (g : GroupId) (f : Group → Group) (i)
    (hf : (f (s.groups.nth g)).state.rightOfWay = true → (s.groups.nth g).state.rightOfWay = true) :
    ((s.groups.upd g f).nth i).state.rightOfWay = true → (s.groups.nth i).state.rightOfWay = true := by
  rw [Table.nth_upd]; split
  · rename_i e; subst e; exact hf
  · exact id

theorem State.conflicts_congr {s t : State} (h : t.plan = s.plan) (a b) : t.conflicts a b = s.conflicts a b := by
  unfold State.conflicts; rw [h]

/-- Where no group gains the right of way, the conflict law stands (R66). -/
theorem State.conflictSafe_shrink {s t : State} (hp : t.plan = s.plan)
    (hg : ∀ g, (t.groups.nth g).state.rightOfWay = true → (s.groups.nth g).state.rightOfWay = true)
    (h : s.conflictSafe) : t.conflictSafe := by
  obtain ⟨h1, h2, h3⟩ := h
  refine ⟨?_, ?_, ?_⟩
  · intro a b; rw [State.conflicts_congr hp, State.conflicts_congr hp]; exact h1 a b
  · intro hn g
    rw [hp] at hn
    cases hx : (t.groups.nth g).state.rightOfWay with
    | false => rfl
    | true => have := hg g hx; rw [h2 hn g] at this; cases this
  · intro a b hc ⟨x, y⟩
    rw [State.conflicts_congr hp] at hc
    exact h3 a b hc ⟨hg a x, hg b y⟩

theorem Group.openRequest_state (g : Group) : g.openRequest.state = g.state := by
  unfold Group.openRequest; split <;> rfl

theorem Group.closeRequest_rightOfWay (g : Group) : g.closeRequest.state.rightOfWay = true → g.state.rightOfWay = true := by
  unfold Group.closeRequest; split
  · rename_i h _; rw [h]; intro _; rfl
  all_goals exact id

/-- A group that is clear to open may gain the right of way (R66). -/
theorem State.conflictSafe_grow {s t : State} (g : GroupId) (hp : t.plan = s.plan) (hc : s.clearToOpen g = true)
    (hg : ∀ i, i ≠ g → (t.groups.nth i).state.rightOfWay = true → (s.groups.nth i).state.rightOfWay = true)
    (h : s.conflictSafe) : t.conflictSafe := by
  obtain ⟨h1, h2, h3⟩ := h
  unfold State.clearToOpen at hc
  simp only [Bool.and_eq_true, beq_iff_eq] at hc
  obtain ⟨⟨⟨hu, hr⟩, _⟩, hcl⟩ := hc
  unfold State.clearedFor at hcl
  rw [allFin_iff] at hcl
  have hcl : ∀ i, s.conflicts i g = true → (s.groups.nth i).state = .red := by
    intro i hi
    have := hcl i
    rw [hi] at this
    simp only [Bool.not_true, Bool.false_or, Bool.and_eq_true, beq_iff_eq] at this
    exact this.1
  refine ⟨?_, ?_, ?_⟩
  · intro a b; rw [State.conflicts_congr hp, State.conflicts_congr hp]; exact h1 a b
  · intro hn
    rw [hp] at hn
    unfold State.used State.groupPlan at hu
    rw [hn] at hu
    simp at hu
  · intro a b hab ⟨x, y⟩
    rw [State.conflicts_congr hp] at hab
    obtain ⟨hba, hne⟩ := h1 a b hab
    by_cases ha : a = g
    · subst ha
      have hb : b ≠ a := fun e => hne e.symm
      have := hg b hb y
      rw [hcl b hba] at this; cases this
    · by_cases hb : b = g
      · subst hb
        have := hg a ha x
        rw [hcl a hab] at this; cases this
      · exact h3 a b hab ⟨hg a ha x, hg b hb y⟩

theorem State.updGroup_lampSync_follows (s : State) (g : GroupId) (f : Group → Group) : s.follows (s.updGroup g f).lampSync :=
  (s.updGroup_follows g f).trans (State.lampSync_follows _)

theorem State.clearToOpen_red {s : State} {g : GroupId} (h : s.clearToOpen g = true) :
    s.used g = true ∧ (s.groups.nth g).state = .red ∧ (s.groups.nth g).held = .open ∧ s.clearedFor g = true := by
  unfold State.clearToOpen at h
  simp only [Bool.and_eq_true, beq_iff_eq] at h
  exact ⟨h.1.1.1, h.1.1.2, h.1.2, h.2⟩

end Sys2Proof.Machine
end

