-- ==== Sys2Proof/Laws/Idle.lean ====
section
/-! SUPPORT. Laws/Idle.lean: an idle sequencer stays idle through arbitration, notices and every entry but that to RUNNING. -/

namespace Sys2Proof.Machine

theorem State.takeNotices_idle (s : State) (n : Notices) (h : s.seq.st = .idle) (h1 : s.seq.release = false) (h2 : s.seq.forceOff = false) :
   (s.takeNotices n).seq.st = .idle ∧ (s.takeNotices n).seq.release = false ∧ (s.takeNotices n).seq.forceOff = false := by
  unfold State.takeNotices
  dsimp only
  refine ⟨h, ?_, ?_⟩
  · rw [h, h1]; simp
  · rw [h, h2]; split <;> simp_all [SeqState.workingToward]

theorem State.setService_idle (s : State) (new) (h : s.seq.st = .idle) :
   (s.setService new).seq.st = .idle ∧ (s.setService new).seq.release = s.seq.release ∧ (s.setService new).seq.forceOff = s.seq.forceOff := by
  unfold State.setService
  split
  · exact ⟨h, rfl, rfl⟩
  · cases new with
    | none =>
      refine ⟨?_, rfl, rfl⟩
      show (State.endService _).seq.st = _
      unfold State.endService
      dsimp only
      rw [h]
    | some c =>
      have e : State.assertService { s with seq := { s.seq with service := some c } } c = { s with seq := { s.seq with service := some c } } := by
        unfold State.assertService
        dsimp only
        rw [h]
      dsimp only
      rw [e]
      exact ⟨h, rfl, rfl⟩

theorem State.advance_idle (s : State) (h : s.seq.st = .idle) : s.advance = s := by
  unfold State.advance
  rw [h]
  split <;> rfl

theorem State.seqStep_idle (s : State) (h : s.seq.st = .idle) : s.seqStep = none := by
  unfold State.seqStep
  rw [h]

theorem State.enterMode_idle (s : State) (m : Mode) (hm : m ≠ .running) (h : s.sequencerSafe) :
    (s.enterMode m).seq.st = .idle ∧ (s.enterMode m).seq.release = false ∧ (s.enterMode m).seq.forceOff = false := by
  let s1 : State := { s with ctrl := { s.ctrl with mode := m, timer := m.timerStart, wait := false } }
  let s2 := s1.forceChange s.ctrl.mode m
  have h2 : s2.seq = s.seq := by
    show (s1.forceChange s.ctrl.mode m).seq = s.seq
    unfold State.forceChange; split <;> rfl
  have h3 : (s2.seqModeChange s.ctrl.mode m).seq.st = .idle ∧ (s2.seqModeChange s.ctrl.mode m).seq.release = false ∧
     (s2.seqModeChange s.ctrl.mode m).seq.forceOff = false := by
    unfold State.seqModeChange
    rw [if_neg hm]
    split
    · exact ⟨rfl, rfl, rfl⟩
    · rename_i ho
      rw [h2]
      obtain ⟨a, b, c, _⟩ := h ho
      exact ⟨a, b, c⟩
  let s4 := if m = .check then (s2.seqModeChange s.ctrl.mode m).selfCheckStart else s2.seqModeChange s.ctrl.mode m
  have h4 : s4.seq = (s2.seqModeChange s.ctrl.mode m).seq := by
    show (if m = .check then (s2.seqModeChange s.ctrl.mode m).selfCheckStart else s2.seqModeChange s.ctrl.mode m).seq = _
    split <;> rfl
  have h5 : (s.enterMode m).seq = s4.arbitrate.seq := rfl
  rw [h5]
  obtain ⟨a, b, c⟩ := h3
  rw [← h4] at a b c
  obtain ⟨x, y, z⟩ := State.setService_idle (s4.withClaimTable (arbitrateTable s4.holdTicks (served s4.ctrl.mode s4.manualFlag) s4.claims.table))
    (servingStage (arbitrateTable s4.holdTicks (served s4.ctrl.mode s4.manualFlag) s4.claims.table)) a
  exact ⟨x, y.trans b, z.trans c⟩

end Sys2Proof.Machine
end

