-- ==== Sys2Proof/Laws/LatchKeeps.lean ====
section
/-! SUPPORT. Laws/LatchKeeps.lean: the ways in which FAULT_FLASH and the two latches move: a property of them that each keeps is kept by every command but the resets and the latching checks. -/

namespace Sys2Proof.Machine

/-- `P` looks at the mode and the two latches alone, and entries to a mode, FAULT_FLASH left by none, keep it. -/
structure LatchKeeps (P : State → Prop) : Prop where
  congr : ∀ s t : State, t.ctrl.mode = s.ctrl.mode → t.lamps.conflict = s.lamps.conflict →
    t.lamps.redOut = s.lamps.redOut → P s → P t
  enterMode : ∀ (s : State) (m : Mode), s.ctrl.mode ≠ .faultFlash ∨ m = .faultFlash → P s → P (s.enterMode m)

namespace LatchKeeps

variable {P : State → Prop} (k : LatchKeeps P)

include k

theorem follows {s t : State} (f : s.follows t) (hm : t.ctrl.mode = s.ctrl.mode) (h : P s) : P t :=
  k.congr s t hm f.lamps_conflict_eq f.lamps_redOut_eq h

theorem arbitrate (s : State) (h : P s) : P s.arbitrate := k.follows s.arbitrate_follows (by rw [s.arbitrate_ctrl]) h

theorem advance (s : State) (h : P s) : P s.advance := k.follows s.advance_follows (by rw [s.advance_ctrl]) h

theorem leaveRed (s : State) (g : GroupId) (h : P s) : P (s.leaveRed g) :=
  k.follows (s.leaveRed_follows g) (by rw [s.leaveRed_ctrl]) h

theorem followKeeps : FollowKeeps P where
  follow := fun s h => k.congr s _ rfl rfl rfl h
  draw := fun s _ h => k.congr s _ rfl rfl rfl h
  grant := fun s g _ h => k.leaveRed s g h
  seq := fun _ _ e h => k.follows (State.seqStep_follows e) (by rw [State.seqStep_ctrl e]) h
  flash := fun s hw h => by
    unfold State.waitOver at hw
    simp only [Bool.and_eq_true, beq_iff_eq] at hw
    exact k.enterMode s _ (Or.inl (by rw [hw.1.2]; nofun)) h
  lamps := fun s h => k.congr s _ rfl rfl rfl h

theorem react (s : State) (h : P s) : P s.react := k.followKeeps.react s h

theorem flashSet (s : State) (h : P s) : P s.flashSet := by
  unfold State.flashSet
  split
  · rename_i hm
    exact k.enterMode s _ (Or.inl (by rw [hm]; nofun)) h
  · rename_i hm
    exact k.enterMode s _ (Or.inl (by rw [hm]; nofun)) h
  · rename_i hm
    split
    · exact k.enterMode s _ (Or.inl (by rw [hm]; nofun)) h
    · exact k.congr s _ rfl rfl rfl h
  all_goals exact h

theorem enterJudged (s : State) (m : Mode) (h1 : s.ctrl.mode ≠ .faultFlash) (h : P s) : P (s.enterJudged m) := by
  unfold State.enterJudged
  dsimp only
  split
  · exact k.flashSet _ (k.enterMode s m (Or.inl h1) h)
  · exact k.enterMode s m (Or.inl h1) h

theorem faultEvent (s : State) (r : Reason) (h : P s) : P (s.faultEvent r) := by
  unfold State.faultEvent
  split
  · exact k.congr s _ rfl rfl rfl h
  · exact k.enterMode _ _ (Or.inr rfl) (k.congr s _ rfl rfl rfl h)

theorem selfCheckFail (s : State) (c : ChanId) (h : P s) : P (s.selfCheckFail c) :=
  k.react _ (k.faultEvent _ _ (k.congr s _ rfl rfl rfl h))

theorem planFault (s : State) (c : Nat) (h : P s) : P (s.planFault c) :=
  k.react _ (k.enterMode _ _ (Or.inr rfl) (k.congr s _ rfl rfl rfl h))

/-! ### The claim unit -/

theorem only {s t : State} (e : s.onlyClaims t) (h : P s) : P t := by
  unfold State.onlyClaims at e
  rw [e]
  exact k.congr s _ rfl rfl rfl h

theorem claimEdge (s : State) (n : RouteId) (q : Priority) (h : P s) : P (s.claimEdge n q) := by
  rcases s.claimEdge_cases n q with ⟨e, _⟩ | ⟨p, _, _, _, e⟩ | e
  · rw [e]
    exact h
  · rw [e]
    exact k.arbitrate _ (k.only (State.offerOwn_only _ p _) (k.congr s _ rfl rfl rfl h))
  · rw [e]
    exact k.congr s _ rfl rfl rfl h

theorem checkOut (s : State) (n : RouteId) (h : P s) : P (s.checkOut n) := by
  rcases s.checkOut_cases n with ⟨_, e⟩ | e | ⟨_, e⟩
  · rw [e]
    exact k.arbitrate _ (k.congr s _ rfl rfl rfl h)
  · rw [e]
    exact h
  · rw [e]
    exact k.congr s _ rfl rfl rfl h

theorem edgeByMode (s : State) (d : LocalId) (f : LocalDef) (h : P s) : P (s.edgeByMode d f) := by
  unfold State.edgeByMode
  split
  · exact h
  · exact h
  · exact k.congr s _ rfl rfl rfl h
  · exact k.claimEdge s _ _ h
  · exact k.checkOut s _ h

theorem claimBoundary (s : State) (p : Plan) (h : P s) : P (s.claimBoundary p) := by
  rw [State.claimBoundary_eq]
  have h1 := k.only (s.claimSteps_only p) h
  split
  · exact k.arbitrate _ h1
  · exact h1

/-! ### The frame boundary -/

theorem cycleOutput (s : State) (p : Plan) (c : Cycle) (d : Bool) (h : P s) : P (s.cycleOutput p c d) :=
  k.react _ (k.congr s _ rfl rfl rfl h)

theorem cycleBoundary (s : State) (p : Plan) (heard : Bool) (h : P s) : P (s.cycleBoundary p heard) := by
  have h1 : P (State.requestMark { s with cycle := (s.cycleSteps p heard).1 } p) := by
    unfold State.requestMark
    split
    · exact k.congr s _ rfl rfl rfl h
    · exact k.congr s _ rfl rfl rfl h
  exact k.cycleOutput _ _ _ _ h1

theorem remoteBoundary (s : State) (h : P s) : P s.remoteBoundary := k.react _ (k.congr s _ rfl rfl rfl h)

theorem claimsBoundary (s : State) (p : Plan) (h : P s) : P (s.claimsBoundary p) :=
  k.react _ (k.claimBoundary s p h)

theorem blocksBoundary (s : State) (p : Plan) (heard : Bool) (n : Nat) (h : P s) :
    P (s.blocksBoundary p heard n) := by
  unfold State.blocksBoundary
  split
  · exact k.claimsBoundary _ p (k.remoteBoundary _ (k.cycleBoundary s p heard h))
  · exact k.remoteBoundary _ (k.claimsBoundary _ p (k.cycleBoundary s p heard h))
  · exact k.claimsBoundary _ p (k.cycleBoundary _ p heard (k.remoteBoundary s h))
  · exact k.cycleBoundary _ p heard (k.claimsBoundary _ p (k.remoteBoundary s h))
  · exact k.remoteBoundary _ (k.cycleBoundary _ p heard (k.claimsBoundary s p h))
  · exact k.cycleBoundary _ p heard (k.remoteBoundary _ (k.claimsBoundary s p h))

theorem planBoundary (s : State) (heard : Bool) (h : P s) : P (s.planBoundary heard) := by
  unfold State.planBoundary
  split
  · exact h
  · rename_i p _
    have h1 := k.blocksBoundary (s.draw 6).2 p heard (s.draw 6).1 (k.congr s _ rfl rfl rfl h)
    exact k.congr ((s.draw 6).2.blocksBoundary p heard (s.draw 6).1) _ rfl rfl rfl h1

theorem frameBoundary (s : State) (heard : Bool) (age : Nat) (o : StationId → Outcome) (h : P s) :
    P (s.frameBoundary heard age o) := by
  have e := (s.atBoundary_law age o).1
  have ec : (s.atBoundary age o).ctrl = s.ctrl := (congrArg State.ctrl e).trans rfl
  have e2 := (s.atBoundary_law age o).2.2.2
  have h1 : P (s.atBoundary age o) := k.congr s _ (by rw [ec]) e2.1 e2.2 h
  rw [State.frameBoundary_eq]
  exact k.congr ((s.atBoundary age o).planBoundary heard) _ rfl rfl rfl (k.planBoundary _ heard h1)

theorem runEnd (s : State) (len : Nat) (edge : Bool) (h : P s) : P (s.runEnd len edge) := by
  rw [State.runEnd_eq]
  repeat' split
  all_goals first
    | exact k.congr s _ rfl rfl rfl h
    | exact k.frameBoundary _ _ _ _ (k.congr s _ rfl rfl rfl h)

end LatchKeeps

/-- The commands that can set or clear a latch, or lead out of FAULT_FLASH. -/
def latching : Instr → Bool
  | .startUpReset _ | .panelFaultReset _ _ | .conflict _ _ | .greenInFlash _ | .redOut _ => true
  | _ => false

set_option maxHeartbeats 1000000 in
/-- Every other command keeps a property of mode and latches. -/
theorem LatchKeeps.exec {P : State → Prop} (k : LatchKeeps P) (c : Instr) (s t : State) (hq : latching c = false)
    (e : Sys2Proof.Machine.exec c s = .next t) (h : P s) : P t := by
  have kc : ∀ u : State, u.ctrl.mode = s.ctrl.mode → u.lamps.conflict = s.lamps.conflict →
      u.lamps.redOut = s.lamps.redOut → P u := fun u h1 h2 h3 => k.congr s u h1 h2 h3 h
  have kr : ∀ u : State, u.ctrl.mode = s.ctrl.mode → u.lamps.conflict = s.lamps.conflict →
      u.lamps.redOut = s.lamps.redOut → P u.react := fun u h1 h2 h3 => k.react u (kc u h1 h2 h3)
  have kq : ∀ row levels, P (s.receiveRow row levels) := fun row levels => by
    obtain ⟨d, q⟩ := s.receiveRow_diag row levels
    rw [q]
    exact kc _ rfl rfl rfl
  cases c <;> first
    | (cases hq; done)
    | (have e2 : _ = t := (by injection e); rw [← e2]; clear e e2 hq)
  case resetRelease =>
    rcases s.resetRelease_cases with ⟨hm, e⟩ | e
    · have hd : s.released.ctrl.mode ≠ .faultFlash := fun x => absurd (hm.symm.trans x) nofun
      exact e ▸ k.react _ (k.enterMode _ _ (Or.inl hd) (k.congr s _ rfl rfl rfl h))
    · rw [e]; exact h
  case frameTimerExpiry line =>
    unfold State.frameTimerExpiry
    dsimp only
    repeat' split
    all_goals first | with_reducible exact h | exact kc _ rfl rfl rfl
  case dominantRunEnd len edge =>
    unfold State.dominantRunEnd
    dsimp only
    repeat' split
    · exact k.runEnd _ _ _ (kc _ rfl rfl rfl)
    · exact kc _ rfl rfl rfl
  case joinWindowClose =>
    unfold State.joinWindowClose
    repeat' split
    all_goals first | with_reducible exact h | exact k.frameBoundary _ _ _ _ h
  case lineStuck run =>
    show P (s.lineStuck run)
    rw [State.lineStuck_eq]
    repeat' split
    · exact kc _ rfl rfl rfl
    · exact k.frameBoundary _ _ _ _ (kc _ rfl rfl rfl)
    · exact h
  case markDriveEnd =>
    unfold State.markDriveEnd
    repeat' split
    all_goals first | with_reducible exact h | (with_reducible refine kr _ ?_ ?_ ?_) <;> rfl | exact kc _ rfl rfl rfl
  case frameSlip =>
    unfold State.frameSlip
    repeat' split
    all_goals first | with_reducible exact h | (with_reducible refine kr _ ?_ ?_ ?_) <;> rfl | exact kc _ rfl rfl rfl
  case recordTransmission =>
    unfold State.recordTransmission
    repeat' split
    all_goals first | with_reducible exact h | (with_reducible refine kr _ ?_ ?_ ?_) <;> rfl | exact kc _ rfl rfl rfl
  case recordTransmissionEnd =>
    unfold State.recordTransmissionEnd
    repeat' split
    all_goals first | with_reducible exact h | (with_reducible refine kr _ ?_ ?_ ?_) <;> rfl | exact kc _ rfl rfl rfl
  case collision m =>
    unfold State.collision
    repeat' split
    all_goals first | with_reducible exact h | (with_reducible refine kr _ ?_ ?_ ?_) <;> rfl | exact kc _ rfl rfl rfl
  case ownSlotEnd =>
    unfold State.ownSlotEnd
    repeat' split
    all_goals first | with_reducible exact h | (with_reducible refine kr _ ?_ ?_ ?_) <;> rfl | exact kc _ rfl rfl rfl
  case silentFaultHoldEnd =>
    unfold State.silentFaultHoldEnd
    repeat' split
    all_goals first | with_reducible exact h | (with_reducible refine kr _ ?_ ?_ ?_) <;> rfl | exact kc _ rfl rfl rfl
  case listenEnd =>
    unfold State.listenEnd
    repeat' split
    all_goals first | with_reducible exact h | (with_reducible refine kr _ ?_ ?_ ?_) <;> rfl | exact kc _ rfl rfl rfl
  case slotSilent k1 =>
    unfold State.slotSilent
    repeat' split
    all_goals first | with_reducible exact h | (with_reducible refine kr _ ?_ ?_ ?_) <;> rfl | exact kc _ rfl rfl rfl
  case slotReception k1 pos levels further =>
    unfold State.slotReception
    repeat' split
    all_goals first | with_reducible exact h | (with_reducible refine kr _ ?_ ?_ ?_) <;> rfl | exact kc _ rfl rfl rfl
  case peerClassification k1 a =>
    unfold State.peerClassification
    repeat' split
    all_goals first | with_reducible exact h | (with_reducible refine kr _ ?_ ?_ ?_) <;> rfl | exact kc _ rfl rfl rfl
  case startHoldEnd =>
    unfold State.startHoldEnd
    repeat' split
    all_goals first | with_reducible exact h | (with_reducible refine kr _ ?_ ?_ ?_) <;> rfl | exact kc _ rfl rfl rfl
  case requestedPatternChange =>
    unfold State.requestedPatternChange
    repeat' split
    all_goals first | with_reducible exact h | (with_reducible refine kr _ ?_ ?_ ?_) <;> rfl | exact kc _ rfl rfl rfl
  case initialLevel d =>
    unfold State.initialLevel
    repeat' split
    all_goals first | with_reducible exact h | (with_reducible refine kr _ ?_ ?_ ?_) <;> rfl | exact kc _ rfl rfl rfl
  case detectorFallingEdge d =>
    unfold State.detectorFallingEdge
    repeat' split
    all_goals first | with_reducible exact h | (with_reducible refine kr _ ?_ ?_ ?_) <;> rfl | exact kc _ rfl rfl rfl
  case pulseOccupancyEnd d =>
    unfold State.pulseOccupancyEnd
    repeat' split
    all_goals first | with_reducible exact h | (with_reducible refine kr _ ?_ ?_ ?_) <;> rfl | exact kc _ rfl rfl rfl
  case faultStuck d =>
    unfold State.faultStuck
    repeat' split
    all_goals first | with_reducible exact h | (with_reducible refine kr _ ?_ ?_ ?_) <;> rfl | exact kc _ rfl rfl rfl
  case faultSilent d =>
    unfold State.faultSilent
    repeat' split
    all_goals first | with_reducible exact h | (with_reducible refine kr _ ?_ ?_ ?_) <;> rfl | exact kc _ rfl rfl rfl
  case flashPhaseChange =>
    unfold State.flashPhaseChange
    repeat' split
    all_goals first | with_reducible exact h | (with_reducible refine kr _ ?_ ?_ ?_) <;> rfl | exact kc _ rfl rfl rfl
  case settleEnd c =>
    unfold State.settleEnd
    repeat' split
    all_goals first | with_reducible exact h | (with_reducible refine kr _ ?_ ?_ ?_) <;> rfl | exact kc _ rfl rfl rfl
  case uncommandedOn c =>
    unfold State.uncommandedOn
    repeat' split
    all_goals first | with_reducible exact h | (with_reducible refine kr _ ?_ ?_ ?_) <;> rfl | exact kc _ rfl rfl rfl
  case lampOut c =>
    unfold State.lampOut
    repeat' split
    all_goals first | with_reducible exact h | (with_reducible refine kr _ ?_ ?_ ?_) <;> rfl | exact kc _ rfl rfl rfl
  case transferRetry =>
    unfold State.transferRetry
    repeat' split
    all_goals first | with_reducible exact h | (with_reducible refine kr _ ?_ ?_ ?_) <;> rfl | exact kc _ rfl rfl rfl
  case diagReplyEnd =>
    unfold State.diagReplyEnd
    repeat' split
    all_goals first | with_reducible exact h | (with_reducible refine kr _ ?_ ?_ ?_) <;> rfl | exact kc _ rfl rfl rfl
  case stuckEnd =>
    unfold State.stuckEnd
    dsimp only
    repeat' split
    all_goals first | with_reducible exact h | (with_reducible refine kr _ ?_ ?_ ?_) <;> rfl | exact kc _ rfl rfl rfl
  case peerLost k1 =>
    unfold State.peerLost
    dsimp only
    repeat' split
    all_goals first | with_reducible exact h | (with_reducible refine kr _ ?_ ?_ ?_) <;> rfl | exact kc _ rfl rfl rfl
  case peerAbsent k1 =>
    unfold State.peerAbsent
    dsimp only
    repeat' split
    all_goals first | with_reducible exact h | (with_reducible refine kr _ ?_ ?_ ?_) <;> rfl | exact kc _ rfl rfl rfl
  case patternLineChange line level held =>
    unfold State.patternLineChange State.judgePair
    dsimp only
    repeat' split
    all_goals first | with_reducible exact h | (with_reducible refine kr _ ?_ ?_ ?_) <;> rfl | exact kc _ rfl rfl rfl
  case stationQuery l => exact kq _ l
  case groupsQuery l => exact kq _ l
  case detectorsQuery l => exact kq _ l
  case peersQuery l => exact kq _ l
  case claimsQuery l => exact kq _ l
  case faultsQuery l => exact kq _ l
  case countsQuery l => exact kq _ l
  case errorReply l => exact kq _ l
  case diagFramingError l => exact kq _ l
  case diagCharacterIgnored l => exact kq _ l
  case detectorInputChange d l => exact kc _ rfl rfl rfl
  case unsetWaitEnd =>
    unfold State.unsetWaitEnd
    repeat' split
    all_goals first | with_reducible exact h | exact k.cycleOutput _ _ _ _ (kc _ rfl rfl rfl)
  case divergenceAdoption =>
    unfold State.divergenceAdoption
    repeat' split
    all_goals first | with_reducible exact h | exact k.cycleOutput _ _ _ _ (kc _ rfl rfl rfl)
  case openGrant g =>
    unfold State.openGrant
    split
    · exact k.react _ (k.leaveRed s g h)
    · split
      · exact k.react s h
      · exact h
  case prepareEnd g =>
    unfold State.prepareEnd
    split
    · exact kr _ rfl rfl rfl
    · exact h
  case minGreenEnd g =>
    unfold State.minGreenEnd
    split
    · exact kr _ rfl rfl rfl
    · exact h
  case gapOut g =>
    unfold State.gapOut
    split
    · exact kr _ rfl rfl rfl
    · exact h
  case maxDone g =>
    unfold State.maxDoneEvent
    split
    · exact kr _ rfl rfl rfl
    · exact h
  case clearingEnd g =>
    unfold State.clearingEnd
    split
    · exact kr _ rfl rfl rfl
    · exact h
  case manualChange a b =>
    unfold State.manualChange
    dsimp only
    repeat' split
    all_goals first | (with_reducible refine k.react _ ?_; exact k.arbitrate _ (kc _ rfl rfl rfl)) | exact kc _ rfl rfl rfl
  case advancePress a b =>
    unfold State.advancePress
    dsimp only
    repeat' split
    all_goals first | (with_reducible refine k.react _ ?_; exact k.advance _ (kc _ rfl rfl rfl)) | exact kc _ rfl rfl rfl
  case detectorRisingEdge d =>
    unfold State.detectorRisingEdge
    repeat' split
    all_goals first | with_reducible exact h | (with_reducible refine k.react _ ?_; exact k.edgeByMode _ _ _ (kc _ rfl rfl rfl))
  case withdrawalDetected a b =>
    unfold State.withdrawalDetected
    dsimp only
    repeat' split
    all_goals first | with_reducible exact h | (with_reducible refine k.react _ ?_; exact k.arbitrate _ (kc _ rfl rfl rfl)) | exact kc _ rfl rfl rfl
  case claimReady a b =>
    unfold State.claimReady
    repeat' split
    all_goals first | with_reducible exact h | (with_reducible refine k.react _ ?_; exact k.arbitrate _ (kc _ rfl rfl rfl))
  case claimArrived a b =>
    unfold State.claimArrived
    dsimp only
    repeat' split
    all_goals first | with_reducible exact h | (with_reducible refine k.react _ ?_; exact k.arbitrate _ (kc _ rfl rfl rfl)) | exact kc _ rfl rfl rfl
  case holdEnd a b =>
    unfold State.holdEnd
    repeat' split
    all_goals first | with_reducible exact h | (with_reducible refine k.react _ ?_; exact k.arbitrate _ (kc _ rfl rfl rfl))
  case claimLifetimeEnd a b =>
    unfold State.claimLifetimeEnd
    dsimp only
    repeat' split
    all_goals first | with_reducible exact h | (with_reducible refine k.react _ ?_; exact k.arbitrate _ (kc _ rfl rfl rfl)) | exact kc _ rfl rfl rfl
  case senseChange a b c =>
    unfold State.senseChange
    dsimp only
    repeat' split
    all_goals first | (with_reducible refine k.selfCheckFail _ _ ?_; exact kc _ rfl rfl rfl) | exact kc _ rfl rfl rfl
  case selfCheckPass =>
    unfold State.selfCheckPass
    split
    · rename_i hd
      unfold State.selfPassDue at hd
      simp only [Bool.and_eq_true, beq_iff_eq] at hd
      exact k.react _ (k.enterJudged _ _ (fun x => absurd (hd.1.1.1.symm.trans x) nofun) (kc _ rfl rfl rfl))
    · exact h
  case selfCheckSettleEnd =>
    unfold State.selfCheckSettleEnd
    dsimp only
    repeat' split
    all_goals first | with_reducible exact h | (with_reducible refine k.selfCheckFail _ _ ?_; exact kc _ rfl rfl rfl) | exact kc _ rfl rfl rfl
  case startFlashEnd =>
    unfold State.startFlashEnd
    split
    · rename_i hd
      unfold State.startFlashDue at hd
      simp only [Bool.and_eq_true, beq_iff_eq] at hd
      exact k.react _ (k.enterJudged s _ (fun x => absurd (hd.1.symm.trans x) nofun) h)
    · exact h
  case allRedEnd =>
    unfold State.allRedEnd
    dsimp only
    split
    · rename_i hd
      unfold State.allRedDue at hd
      simp only [Bool.and_eq_true, beq_iff_eq] at hd
      have h1 := k.react _ (k.enterMode s .running (Or.inl fun x => absurd (hd.1.symm.trans x) nofun) h)
      split
      · exact k.react _ (k.flashSet _ h1)
      · exact h1
    · exact h
  case flashRequestChange a b =>
    unfold State.flashRequestChange State.flashCleared
    dsimp only
    repeat' split
    · exact kc _ rfl rfl rfl
    · exact kc _ rfl rfl rfl
    · exact k.react _ (k.flashSet _ (kc _ rfl rfl rfl))
    · exact kr _ rfl rfl rfl
    · rename_i hm
      exact k.react _ (k.enterJudged _ _ (fun x => absurd (hm.symm.trans x) nofun) (kc _ rfl rfl rfl))
    all_goals exact kr _ rfl rfl rfl
  case planTransfer levels =>
    unfold State.planTransfer State.transferDone
    dsimp only
    repeat' split
    all_goals first | with_reducible exact h | exact k.planFault _ _ (kc _ rfl rfl rfl) | exact kc _ rfl rfl rfl
  case transferFailure levels =>
    unfold State.transferFailure State.transferFailed
    repeat' split
    all_goals first | with_reducible exact h | with_reducible exact k.planFault _ _ h | exact kc _ rfl rfl rfl
  case planValidation =>
    unfold State.planValidation
    split
    · rename_i hc
      unfold State.checking at hc
      simp only [Bool.and_eq_true, beq_iff_eq] at hc
      split
      · rename_i p _
        have hd : (s.writePlan p).ctrl.mode ≠ .faultFlash := fun x => absurd (hc.1.symm.trans x) nofun
        exact k.react _ (k.enterMode _ _ (Or.inl hd) (kc _ rfl rfl rfl))
      · exact k.planFault _ _ h
    · exact h

end Sys2Proof.Machine
end

