-- ==== Sys2Proof/Laws/SelfCheck.lean ====
section
/-! SUPPORT. Laws/SelfCheck.lean: the self-check changes at an entry to CHECK and by its own commands alone. -/

namespace Sys2Proof.Machine

/-- The self-check's part of the lamp block (R165). -/
def State.selfState (s : State) : SelfCheck × Nat × Bool × Option ChanId × Bool :=
  (s.lamps.selfCheck, s.lamps.selfTime, s.lamps.selfJudging, s.lamps.firstFailing, s.lamps.checkPassed)

theorem State.leaveRed_self (s : State) (g : GroupId) : (s.leaveRed g).selfState = s.selfState := by
  unfold State.leaveRed; split <;> rfl

theorem State.grantStep_self {s t : State} (h : s.grantStep = some t) : t.selfState = s.selfState := by
  unfold State.grantStep at h
  cases hg : firstFin (fun g => s.clearToOpen g) with
  | none => simp [hg] at h
  | some g => rw [hg] at h; cases h; exact s.leaveRed_self g

theorem State.startChange_self (s : State) : s.startChange.selfState = s.selfState := by
  unfold State.startChange; split <;> rfl

theorem State.completeChange_self (s : State) (c : Change) : (s.completeChange c).selfState = s.selfState := by
  unfold State.completeChange
  cases c.replacement with
  | none => rfl
  | some t => dsimp only; split <;> rfl

theorem State.seqStep_self {s t : State} (h : s.seqStep = some t) : t.selfState = s.selfState := by
  unfold State.seqStep at h
  split at h
  · cases h
  · rename_i c _
    split at h
    · cases h; rfl
    · split at h
      · cases h; exact s.completeChange_self c
      · cases h
  · split at h
    · rename_i d _ _
      cases hu : s.selectTarget d with
      | none => simp [hu] at h
      | some u => rw [hu] at h; cases h; rfl
    · cases h

theorem State.assertService_self (s : State) (c : StageId) : (s.assertService c).selfState = s.selfState := by
  unfold State.assertService
  split
  · rfl
  · split <;> rfl
  · split
    · rfl
    · split <;> rfl

theorem State.setService_self (s : State) (new : Option StageId) : (s.setService new).selfState = s.selfState := by
  unfold State.setService
  split
  · rfl
  · cases new with
    | none => rfl
    | some c => exact State.assertService_self _ c

theorem State.arbitrate_self (s : State) : s.arbitrate.selfState = s.selfState := by
  unfold State.arbitrate; exact State.setService_self _ _

theorem State.settle_self (n : Nat) (s : State) : (State.settle n s).selfState = s.selfState := by
  induction n generalizing s with
  | zero => rfl
  | succ n ih =>
    unfold State.settle
    split
    · rename_i s1 h1
      exact (ih s1.follow).trans (show s1.selfState = s.selfState from State.grantStep_self h1)
    · split
      · rename_i s1 h1
        exact (ih s1.follow).trans (show s1.selfState = s.selfState from State.seqStep_self h1)
      · rfl

/-- An entry to another mode than CHECK leaves the self-check alone. -/
theorem State.enterMode_self (s : State) {m : Mode} (h : m ≠ .check) : (s.enterMode m).selfState = s.selfState := by
  have hf : ∀ (t : State) (a b : Mode), (t.forceChange a b).selfState = t.selfState := by
    intro t a b; unfold State.forceChange; split <;> rfl
  have hq : ∀ (t : State) (a b : Mode), (t.seqModeChange a b).selfState = t.selfState := by
    intro t a b
    unfold State.seqModeChange
    split
    · exact t.startChange_self
    · split <;> rfl
  have hc : ∀ t : State, (if m = .check then t.selfCheckStart else t) = t := fun t => if_neg h
  have he : (s.enterMode m).selfState = State.selfState (State.seqModeChange (State.forceChange
      { s with ctrl := { s.ctrl with mode := m, timer := m.timerStart, wait := false } } s.ctrl.mode m) s.ctrl.mode m) := by
    have h1 : s.enterMode m = State.lampSync (State.arbitrate (if m = .check then State.selfCheckStart (State.seqModeChange (State.forceChange
      { s with ctrl := { s.ctrl with mode := m, timer := m.timerStart, wait := false } } s.ctrl.mode m) s.ctrl.mode m) else (State.seqModeChange (State.forceChange
      { s with ctrl := { s.ctrl with mode := m, timer := m.timerStart, wait := false } } s.ctrl.mode m) s.ctrl.mode m))) := rfl
    rw [h1, hc]
    exact State.arbitrate_self _
  rw [he]
  exact (hq _ _ _).trans (hf _ _ _)

/-- An entry to CHECK starts the self-check (R165). -/
theorem State.enterCheck_self (s : State) :
    (s.enterMode .check).selfState = (.running, 0, false, none, false) := by
  have h1 : s.enterMode .check = State.lampSync (State.arbitrate (State.selfCheckStart (State.seqModeChange (State.forceChange
      { s with ctrl := { s.ctrl with mode := .check, timer := Mode.check.timerStart, wait := false } } s.ctrl.mode .check) s.ctrl.mode .check))) := rfl
  rw [h1]
  exact State.arbitrate_self _

theorem State.endWait_self (s : State) : s.endWait.selfState = s.selfState := by
  unfold State.endWait
  split
  · exact s.enterMode_self nofun
  · rfl

theorem State.raceWait_self (s : State) : s.raceWait.selfState = s.selfState := by
  have h : s.raceWait =
      if s.waitOver then if (s.draw 2).1 = 0 then (s.draw 2).2.endWait else (s.draw 2).2 else s := rfl
  rw [h]
  split
  · split
    · exact State.endWait_self (s.draw 2).2
    · rfl
  · rfl

/-- What follows an event leaves the self-check alone. -/
theorem State.react_self (s : State) : s.react.selfState = s.selfState :=
  (State.endWait_self _).trans ((State.settle_self _ _).trans (State.raceWait_self s.follow))

theorem State.react_selfCheck (s : State) : s.react.lamps.selfCheck = s.lamps.selfCheck :=
  congrArg Prod.fst s.react_self

theorem State.react_firstFailing (s : State) : s.react.lamps.firstFailing = s.lamps.firstFailing :=
  congrArg (fun x => x.2.2.2.1) s.react_self

theorem State.react_checkPassed (s : State) : s.react.lamps.checkPassed = s.lamps.checkPassed :=
  congrArg (fun x => x.2.2.2.2) s.react_self

/-! ### Fault events -/

/-- A fault event leaves the station in FAULT_FLASH with its reason set, and beside the mode and what follows it
touches the reasons alone (R177). -/
theorem State.faultEvent_law (s : State) (r : Reason) :
    (s.faultEvent r).ctrl.mode = .faultFlash ∧ (s.faultEvent r).ctrl.reasons = s.ctrl.reasons.add r ∧
      (s.faultEvent r).selfState = s.selfState ∧ (s.faultEvent r).lamps.conflict = s.lamps.conflict ∧
      (s.faultEvent r).lamps.redOut = s.lamps.redOut ∧ (s.faultEvent r).line = s.line ∧
      (s.faultEvent r).cycle = s.cycle ∧ (s.faultEvent r).plan = s.plan := by
  unfold State.faultEvent
  split
  · rename_i h; exact ⟨h, rfl, rfl, rfl, rfl, rfl, rfl, rfl⟩
  · have h := State.enterMode_follows (s.addReason r) .faultFlash
    exact ⟨State.enterMode_mode _ _, h.ctrl_reasons_eq, State.enterMode_self _ nofun, h.lamps_conflict_eq,
      h.lamps_redOut_eq, h.line_eq, h.cycle_eq, h.plan_eq⟩

/-- The same once everything at its moment has followed: FAULT_FLASH stands. -/
theorem State.faultEvent_react (s : State) (r : Reason) :
    (s.faultEvent r).react.ctrl.mode = .faultFlash ∧
      (s.faultEvent r).react.ctrl.reasons = s.ctrl.reasons.add r ∧
      (s.faultEvent r).react.selfState = s.selfState ∧
      (s.faultEvent r).react.lamps.conflict = s.lamps.conflict ∧
      (s.faultEvent r).react.lamps.redOut = s.lamps.redOut ∧ (s.faultEvent r).react.line = s.line ∧
      (s.faultEvent r).react.cycle = s.cycle ∧ (s.faultEvent r).react.plan = s.plan := by
  obtain ⟨a, b, c, d, e, f, g, i⟩ := s.faultEvent_law r
  have h := State.react_follows (s.faultEvent r)
  refine ⟨?_, h.ctrl_reasons_eq.trans b, (State.react_self _).trans c, h.lamps_conflict_eq.trans d,
    h.lamps_redOut_eq.trans e, h.line_eq.trans f, h.cycle_eq.trans g, h.plan_eq.trans i⟩
  rcases State.react_mode (s.faultEvent r) with k | ⟨k, _⟩
  · rw [k, a]
  · rw [a] at k; cases k

end Sys2Proof.Machine
end

