-- ==== Sys2Proof/Laws/Senses.lean ====
section
/-! SUPPORT. Laws/Senses.lean: pin filters, senses and the self-check. -/

namespace Sys2Proof.Machine

/-- Agreement touches timings and live flags alone (R160, R161). -/
theorem Chan.agree_law (ph : Bool) (c : Chan) : (c.agree ph).sense = c.sense ∧ (c.agree ph).command = c.command ∧ (c.agree ph).output = c.output ∧ (c.agree ph).settle = c.settle := by
  unfold Chan.agree
  split
  · split <;> exact ⟨rfl, rfl, rfl, rfl⟩
  · exact ⟨rfl, rfl, rfl, rfl⟩

/-- A judged channel that is off as expected returns its UNCOMMANDED_ON timing (R160, R161). -/
theorem Chan.agree_off {ph : Bool} {c : Chan} (h : c.settle = none) (he : c.command.expected ph = false)
    (hs : c.sensed = false) : c.agree ph = { c with unTime := 0, unLive := false } := by
  unfold Chan.agree Chan.judged
  rw [h, he, hs]
  rfl

/-- A judged channel that is on as expected returns its LAMP_OUT timing (R160, R161). -/
theorem Chan.agree_on {ph : Bool} {c : Chan} (h : c.settle = none) (he : c.command.expected ph = true)
    (hs : c.sensed = true) : c.agree ph = { c with loTime := 0, loLive := false } := by
  unfold Chan.agree Chan.judged
  rw [h, he, hs]
  rfl

/-- A channel that is unjudged or disagrees keeps its timings and flags (R160, R161). -/
theorem Chan.agree_keeps {ph : Bool} {c : Chan} (h : c.settle ≠ none ∨ c.command.expected ph ≠ c.sensed) :
    c.agree ph = c := by
  unfold Chan.agree Chan.judged
  rcases h with h | h
  · rw [if_neg (by simpa using h)]
  · split
    · cases he : c.command.expected ph <;> cases hs : c.sensed
      · exact absurd (he.trans hs.symm) h
      · rfl
      · rfl
      · exact absurd (he.trans hs.symm) h
    · rfl

/-- A pair's timing stands at 0 where the pair is not lit together (R156, R159). -/
theorem State.monitorSync_pairs (s : State) (a b : GroupId) : (s.monitorSync.lamps.pairs.nth a).nth b =
    if s.pairLit a b = true then (s.lamps.pairs.nth a).nth b else 0 := by
  unfold State.monitorSync
  simp

/-- A green's timing stands at 0 where the green is not lit in a flash mode (R157, R159). -/
theorem State.monitorSync_greens (s : State) (g : GroupId) : s.monitorSync.lamps.greens.nth g =
    if s.greenLit g = true then s.lamps.greens.nth g else 0 := by
  unfold State.monitorSync
  simp

/-- A red's timing stands at 0 where the red is not watched, or judged and sensed on (R158, R159). -/
theorem State.monitorSync_reds (s : State) (g : GroupId) : s.monitorSync.lamps.reds.nth g =
    if (s.redWatched g && !((s.lamps.channels.nth (chanOf g 0)).judged && s.sensed (chanOf g 0))) = true
    then s.lamps.reds.nth g else 0 := by
  unfold State.monitorSync
  simp

/-- The timings follow their conditions once (R156 to R159). -/
theorem State.monitorSync_idem (s : State) : s.monitorSync.monitorSync = s.monitorSync := by
  have hp : s.monitorSync.monitorSync.lamps.pairs = s.monitorSync.lamps.pairs :=
    Table.ext_nth fun a => Table.ext_nth fun b => by
      rw [State.monitorSync_pairs, State.monitorSync_pairs, show s.monitorSync.pairLit a b = s.pairLit a b from rfl]
      split <;> rfl
  have hg : s.monitorSync.monitorSync.lamps.greens = s.monitorSync.lamps.greens :=
    Table.ext_nth fun g => by
      rw [State.monitorSync_greens, State.monitorSync_greens, show s.monitorSync.greenLit g = s.greenLit g from rfl]
      split <;> rfl
  have hr : s.monitorSync.monitorSync.lamps.reds = s.monitorSync.lamps.reds :=
    Table.ext_nth fun g => by
      rw [State.monitorSync_reds, State.monitorSync_reds, show s.monitorSync.redWatched g = s.redWatched g from rfl,
        show s.monitorSync.lamps.channels = s.lamps.channels from rfl,
        show s.monitorSync.sensed (chanOf g 0) = s.sensed (chanOf g 0) from rfl]
      split <;> rfl
  show { s.monitorSync with lamps := { s.monitorSync.lamps with
    pairs := s.monitorSync.monitorSync.lamps.pairs, greens := s.monitorSync.monitorSync.lamps.greens
    reds := s.monitorSync.monitorSync.lamps.reds } } = s.monitorSync
  rw [hp, hg, hr]

/-- A level held for the filter time becomes the filtered level (R193). -/
theorem Filter.sample_held (limit : Nat) (f : Filter) (l : Bool) (held : Nat) (h : limit ≤ held) :
    f.sample limit l held = { raw := l, time := limit, level := some l } := by
  unfold Filter.sample
  rw [if_pos h, Nat.min_eq_right h]

/-- A level not held for the filter time leaves the filtered level (R193). -/
theorem Filter.sample_short (limit : Nat) (f : Filter) (l : Bool) (held : Nat) (h : held < limit) :
    f.sample limit l held = { raw := l, time := held, level := f.level } := by
  unfold Filter.sample
  rw [if_neg (by omega), Nat.min_eq_left (by omega)]

theorem State.senseSync_nth (s : State) (c e : ChanId) : (s.senseSync c).lamps.channels.nth e =
   if c = e then (s.lamps.channels.nth c).agree s.lamps.phase else s.lamps.channels.nth e := by
  unfold State.senseSync State.monitorSync State.updChan
  dsimp only
  exact Table.nth_upd _ _ _ _

theorem State.sampleSense_nth (s : State) (c e : ChanId) (l : Bool) (h : Nat) : (s.sampleSense c l h).lamps.channels.nth e =
   if c = e then { s.lamps.channels.nth c with sense := (s.lamps.channels.nth c).sense.sample tSNF l h } else s.lamps.channels.nth e := by
  unfold State.sampleSense State.updChan
  dsimp only
  exact Table.nth_upd _ _ _ _

/-- The self-check fails: FAULT_FLASH with its reason (R165, R177). -/
theorem State.selfCheckFail_law (s : State) (c : ChanId) :
    (s.selfCheckFail c).lamps.selfCheck = .failed ∧ (s.selfCheckFail c).lamps.firstFailing = some c ∧
    (s.selfCheckFail c).lamps.checkPassed = s.lamps.checkPassed ∧ (s.selfCheckFail c).ctrl.mode = .faultFlash ∧
    (s.selfCheckFail c).ctrl.reasons.selfCheck = true ∧ (s.selfCheckFail c).line = s.line ∧
    (s.selfCheckFail c).cycle = s.cycle ∧ (s.selfCheckFail c).plan = s.plan := by
  have h := State.faultEvent_react { s with lamps := { s.lamps with
    selfCheck := .failed, firstFailing := some c, selfJudging := false } } .selfCheck
  have hs := h.2.2.1
  unfold State.selfCheckFail
  refine ⟨congrArg Prod.fst hs, congrArg (fun x => x.2.2.2.1) hs, congrArg (fun x => x.2.2.2.2) hs, h.1, ?_, h.2.2.2.2.2.1, h.2.2.2.2.2.2.1, h.2.2.2.2.2.2.2⟩
  rw [h.2.1]; rfl

theorem State.mem_channelsOn (s : State) (c : ChanId) : c ∈ s.channelsOn ↔ s.sensed c = true := by
  unfold State.channelsOn; simp

theorem getD_mem {α : Type} (l : List α) (n : Nat) (d : α) (h : d ∈ l) : l.getD n d ∈ l := by
  rw [List.getD_eq_getElem?_getD]
  cases h3 : l[n]? with
  | none => exact h
  | some x => exact List.mem_of_getElem? h3

end Sys2Proof.Machine
end

