-- ==== Sys2Proof/Laws/Latches.lean ====
section
/-! SUPPORT. Laws/Latches.lean: what any command does to the two latches and to FAULT_FLASH. -/

namespace Sys2Proof.Machine

/-- A command that is no reset and no latching check leaves both latches, and FAULT_FLASH where it stands. -/
theorem exec_latches (c : Instr) (s t : State) (hq : latching c = false) (e : exec c s = .next t) :
    t.lamps.conflict = s.lamps.conflict ∧ t.lamps.redOut = s.lamps.redOut ∧ (s.ctrl.mode = .faultFlash → t.ctrl.mode = .faultFlash) := by
  have k : LatchKeeps fun u : State => u.lamps.conflict = s.lamps.conflict ∧ u.lamps.redOut = s.lamps.redOut ∧
      (s.ctrl.mode = .faultFlash → u.ctrl.mode = .faultFlash) :=
    { congr := fun u v h1 h2 h3 ⟨a, b, d⟩ => ⟨h2.trans a, h3.trans b, by rw [h1]; exact d⟩
      enterMode := fun u m hm ⟨a, b, d⟩ => ⟨(u.enterMode_follows m).lamps_conflict_eq.trans a, (u.enterMode_follows m).lamps_redOut_eq.trans b, fun x => by
        rw [State.enterMode_mode]
        rcases hm with hm | hm
        · exact absurd (d x) hm
        · exact hm⟩ }
  exact k.exec c s t hq e ⟨rfl, rfl, id⟩

/-- `t` stands in FAULT_FLASH with the line, cycle unit and plan of `s`. -/
def State.flashedFrom (s t : State) : Prop :=
  t.ctrl.mode = .faultFlash ∧ t.line = s.line ∧ t.cycle = s.cycle ∧ t.plan = s.plan

theorem State.flashedFrom.trans {s t u : State} (h : s.flashedFrom t) (k : t.flashedFrom u) : s.flashedFrom u :=
  ⟨k.1, k.2.1.trans h.2.1, k.2.2.1.trans h.2.2.1, k.2.2.2.trans h.2.2.2⟩

/-- FAULT_FLASH stands while everything at its moment follows. -/
theorem State.react_faultFlash {s t : State} (h : s.flashedFrom t) : s.flashedFrom t.react ∧
    t.react.ctrl.reasons = t.ctrl.reasons ∧ t.react.lamps.conflict = t.lamps.conflict ∧
    t.react.lamps.redOut = t.lamps.redOut := by
  have k := t.react_follows
  refine ⟨h.trans ⟨?_, k.line_eq, k.cycle_eq, k.plan_eq⟩, k.ctrl_reasons_eq, k.lamps_conflict_eq, k.lamps_redOut_eq⟩
  rcases t.react_mode with x | x
  · rw [x, h.1]
  · rw [h.1] at x; exact absurd x.1 nofun

/-- A clear conflict latch is set, with FAULT_FLASH and the reason (R162, R177). -/
theorem State.latchConflict_clear {s : State} (h : s.lamps.conflict = none) (c : ConflictCause) :
    s.flashedFrom (s.latchConflict c) ∧ (s.latchConflict c).lamps.conflict = some c ∧
    (s.latchConflict c).lamps.redOut = s.lamps.redOut ∧
    (s.latchConflict c).ctrl.reasons = s.ctrl.reasons.add .conflict := by
  unfold State.latchConflict
  rw [h]
  obtain ⟨a, r, _, b, d, l, y, p⟩ := State.faultEvent_law { s with lamps := { s.lamps with conflict := some c } } .conflict
  exact ⟨⟨a, l, y, p⟩, b, d, r⟩

/-- A conflict latch that is set stands. -/
theorem State.latchConflict_set {s : State} (h : s.lamps.conflict ≠ none) (c : ConflictCause) : s.latchConflict c = s := by
  unfold State.latchConflict
  split
  · rfl
  · contradiction

/-- A clear red-out latch is set, with FAULT_FLASH and the reason (R162, R177). -/
theorem State.latchRedOut_clear {s : State} (h : s.lamps.redOut = none) (g : GroupId) :
    s.flashedFrom (s.latchRedOut g) ∧ (s.latchRedOut g).lamps.redOut = some g ∧
    (s.latchRedOut g).lamps.conflict = s.lamps.conflict ∧
    (s.latchRedOut g).ctrl.reasons = s.ctrl.reasons.add .redOut := by
  unfold State.latchRedOut
  rw [h]
  obtain ⟨a, r, _, b, d, l, y, p⟩ := State.faultEvent_law { s with lamps := { s.lamps with redOut := some g } } .redOut
  exact ⟨⟨a, l, y, p⟩, d, b, r⟩

/-- A red-out latch that is set stands. -/
theorem State.latchRedOut_set {s : State} (h : s.lamps.redOut ≠ none) (g : GroupId) : s.latchRedOut g = s := by
  unfold State.latchRedOut
  split
  · rfl
  · contradiction

/-- The first fault once reason `r` is taken (R177). -/
def State.firstWith (s : State) (r : Reason) : Option Reason :=
  if s.ctrl.mode ≠ .faultFlash ∧ s.ctrl.reasons.isEmpty = true then some r else s.ctrl.firstFault

/-- A fault event makes its reason the first fault outside FAULT_FLASH where none is held (R177). -/
theorem State.faultEvent_first (s : State) (r : Reason) : (s.faultEvent r).ctrl.firstFault = s.firstWith r := by
  unfold State.faultEvent State.firstWith
  split
  · rename_i h
    rw [if_neg (by simp [h])]
  · rename_i h
    rw [((s.addReason r).enterMode_follows .faultFlash).ctrl_firstFault_eq]
    unfold State.addReason
    by_cases he : s.ctrl.reasons.isEmpty = true <;> simp [h, he]

/-- A conflict latch that is set takes its reason to the first fault (R162, R177). -/
theorem State.latchConflict_first {s : State} (h : s.lamps.conflict = none) (c : ConflictCause) :
    (s.latchConflict c).ctrl.firstFault = s.firstWith .conflict := by
  unfold State.latchConflict
  rw [h]
  exact State.faultEvent_first _ _

/-- A red-out latch that is set takes its reason to the first fault (R162, R177). -/
theorem State.latchRedOut_first {s : State} (h : s.lamps.redOut = none) (g : GroupId) :
    (s.latchRedOut g).ctrl.firstFault = s.firstWith .redOut := by
  unfold State.latchRedOut
  rw [h]
  exact State.faultEvent_first _ _

/-- In FAULT_FLASH a second latch leaves the first fault (R177). -/
theorem State.alsoRedOut_first (l : List GroupId) {t : State} (h : t.ctrl.mode = .faultFlash) :
    (t.alsoRedOut l).ctrl.firstFault = t.ctrl.firstFault := by
  cases l with
  | nil => rfl
  | cons g l =>
    unfold State.alsoRedOut State.latchRedOut
    dsimp only
    split
    · rfl
    · rw [State.faultEvent_first]
      exact if_neg fun k => k.1 h

theorem State.alsoConflict_first (l : List (GroupId × GroupId)) {t : State} (h : t.ctrl.mode = .faultFlash) :
    (t.alsoConflict l).ctrl.firstFault = t.ctrl.firstFault := by
  cases l with
  | nil => rfl
  | cons g l =>
    unfold State.alsoConflict State.latchConflict
    dsimp only
    split
    · rfl
    · rw [State.faultEvent_first]
      exact if_neg fun k => k.1 h

/-- The red-outs due beside a conflict act on their own latch where it is clear (R162, R177). -/
theorem State.alsoRedOut_law (l : List GroupId) {s t : State} (h : s.flashedFrom t) :
    s.flashedFrom (t.alsoRedOut l) ∧ (t.alsoRedOut l).lamps.conflict = t.lamps.conflict ∧
    (t.alsoRedOut l).ctrl.reasons.conflict = t.ctrl.reasons.conflict ∧
    (l = [] ∨ t.lamps.redOut ≠ none → (t.alsoRedOut l).lamps.redOut = t.lamps.redOut ∧
      (t.alsoRedOut l).ctrl.reasons = t.ctrl.reasons) ∧
    (l ≠ [] → t.lamps.redOut = none →
      ∃ g, g ∈ l ∧ (t.alsoRedOut l).lamps.redOut = some g ∧ (t.alsoRedOut l).ctrl.reasons.redOut = true) := by
  cases l with
  | nil => exact ⟨h, rfl, rfl, fun _ => ⟨rfl, rfl⟩, fun x => absurd rfl x⟩
  | cons g l =>
    have hd : s.flashedFrom (t.draw (l.length + 1)).2 := h
    unfold State.alsoRedOut
    dsimp only
    by_cases hr : t.lamps.redOut = none
    · obtain ⟨a, b, d, e⟩ := State.latchRedOut_clear (s := (t.draw (l.length + 1)).2) hr
        ((g :: l).getD (t.draw (l.length + 1)).1 g)
      refine ⟨hd.trans a, d, by rw [e]; rfl, fun x => ?_, fun _ _ => ⟨_, ?_, b, by rw [e]; rfl⟩⟩
      · rcases x with x | x
        · cases x
        · exact absurd hr x
      · exact getD_mem _ _ _ (List.mem_cons_self ..)
    · rw [State.latchRedOut_set (s := (t.draw (l.length + 1)).2) hr]
      exact ⟨hd, rfl, rfl, fun _ => ⟨rfl, rfl⟩, fun _ x => absurd x hr⟩

/-- The pairs due beside a red-out act on their own latch where it is clear (R162, R177). -/
theorem State.alsoConflict_law (l : List (GroupId × GroupId)) {s t : State} (h : s.flashedFrom t) :
    s.flashedFrom (t.alsoConflict l) ∧ (t.alsoConflict l).lamps.redOut = t.lamps.redOut ∧
    (t.alsoConflict l).ctrl.reasons.redOut = t.ctrl.reasons.redOut ∧
    (l = [] ∨ t.lamps.conflict ≠ none → (t.alsoConflict l).lamps.conflict = t.lamps.conflict ∧
      (t.alsoConflict l).ctrl.reasons = t.ctrl.reasons) ∧
    (l ≠ [] → t.lamps.conflict = none → ∃ q, q ∈ l ∧
      (t.alsoConflict l).lamps.conflict = some (.conflict q.1 q.2) ∧
      (t.alsoConflict l).ctrl.reasons.conflict = true) := by
  cases l with
  | nil => exact ⟨h, rfl, rfl, fun _ => ⟨rfl, rfl⟩, fun x => absurd rfl x⟩
  | cons g l =>
    have hd : s.flashedFrom (t.draw (l.length + 1)).2 := h
    unfold State.alsoConflict
    dsimp only
    by_cases hr : t.lamps.conflict = none
    · generalize hq : (g :: l).getD (t.draw (l.length + 1)).1 g = q
      obtain ⟨a, b, d, e⟩ := State.latchConflict_clear (s := (t.draw (l.length + 1)).2) hr (.conflict q.1 q.2)
      refine ⟨hd.trans a, d, by rw [e]; rfl, fun x => ?_, fun _ _ => ⟨q, ?_, b, by rw [e]; rfl⟩⟩
      · rcases x with x | x
        · cases x
        · exact absurd hr x
      · rw [← hq]
        exact getD_mem _ _ _ (List.mem_cons_self ..)
    · rw [State.latchConflict_set (s := (t.draw (l.length + 1)).2) hr]
      exact ⟨hd, rfl, rfl, fun _ => ⟨rfl, rfl⟩, fun _ x => absurd x hr⟩

theorem State.panelFaultReset_latches (s : State) (l h) (t) (e : s.panelFaultReset l h = t) :
    (t.lamps.conflict = s.lamps.conflict ∧ t.lamps.redOut = s.lamps.redOut ∧ (s.ctrl.mode = .faultFlash → t.ctrl.mode = .faultFlash)) ∨
    (s.ctrl.mode = .faultFlash ∧ s.ctrl.reasons.plan = false ∧ t.ctrl.mode = .check ∧ t.lamps.conflict = none ∧ t.lamps.redOut = none) := by
  subst e
  unfold State.panelFaultReset
  dsimp only
  split
  · generalize hs1 : s.sampleFaultReset l h = s1
    have c1 : s1.ctrl = s.ctrl := by rw [← hs1]; rfl
    have c2 : s1.lamps = s.lamps := by rw [← hs1]; rfl
    generalize hu : s1.clearLampFlags.detectorFaultReset = u
    have ho : s1.faultResetOrders = if s1.resetClears then (u.clearLatches.emptyReasons).enterMode .check else u := by
      rw [← hu]; rfl
    have u1 : u.ctrl = s.ctrl ∧ u.lamps.conflict = s.lamps.conflict ∧ u.lamps.redOut = s.lamps.redOut := by
      rw [← hu, ← c1, ← c2]; exact ⟨rfl, rfl, rfl⟩
    rw [ho]
    split
    · rename_i hr
      unfold State.resetClears at hr
      rw [c1] at hr
      simp only [Bool.and_eq_true, beq_iff_eq, Bool.not_eq_true'] at hr
      right
      have hf := (u.clearLatches.emptyReasons.enterMode_follows .check).trans (State.react_follows _)
      refine ⟨hr.1, hr.2, ?_, hf.lamps_conflict_eq, hf.lamps_redOut_eq⟩
      rcases (u.clearLatches.emptyReasons.enterMode .check).react_mode with x | x
      · rw [x, State.enterMode_mode]
      · rw [State.enterMode_mode] at x; exact absurd x.1 nofun
    · left
      have hf := u.react_follows
      refine ⟨hf.lamps_conflict_eq.trans u1.2.1, hf.lamps_redOut_eq.trans u1.2.2, fun hm => ?_⟩
      rcases u.react_mode with x | x
      · rw [x, u1.1]; exact hm
      · rw [u1.1, hm] at x; exact absurd x.1 nofun
  · exact Or.inl ⟨rfl, rfl, id⟩

end Sys2Proof.Machine
end

