-- ==== Sys2Proof/Laws/ModeKeeps.lean ====
section
/-! SUPPORT. Laws/ModeKeeps.lean: the ways in which the station mode and the sequencer move: a property of them that each keeps is kept by every command. -/

namespace Sys2Proof.Machine

/-! ### A read that has begun -/

theorem State.reading_of_retryDue {s : State} (h : s.retryDue = true) : s.planRead.readState ≠ .notStarted := by
  intro e
  unfold State.retryDue at h
  rw [e] at h
  simp at h

theorem State.reading_of_transferring {s : State} (h : s.transferring = true) :
    s.planRead.readState ≠ .notStarted := by
  intro e
  unfold State.transferring at h
  rw [e] at h
  simp at h

theorem State.reading_of_checking {s : State} (h : s.checking = true) : s.planRead.readState ≠ .notStarted := by
  intro e
  unfold State.checking at h
  rw [e] at h
  simp at h

/-- `P` looks at the mode, its timer and wait, the sequencer and a plan read that has not begun alone, and every move of theirs but the tick,
start-up reset and its release keeps it. -/
structure ModeKeeps (P : State → Prop) : Prop where
  congr : ∀ s t : State, t.ctrl.mode = s.ctrl.mode → t.ctrl.timer = s.ctrl.timer →
    t.ctrl.wait = s.ctrl.wait → t.seq = s.seq →
    t.planRead = s.planRead ∨ s.planRead.readState ≠ .notStarted → P s → P t
  enterMode : ∀ (s : State) (m : Mode), m ≠ .dark → m ≠ .loading → P s → P (s.enterMode m)
  seqStep : ∀ s t : State, s.seqStep = some t → P s → P t
  arbitrate : ∀ s : State, P s → P s.arbitrate
  advance : ∀ s : State, P s → P s.advance
  takeNotices : ∀ (s : State) (n : Notices), P s → P (s.takeNotices n)
  setWait : ∀ s : State, s.ctrl.mode = .running → P s → P { s with ctrl := { s.ctrl with wait := true } }
  clearWait : ∀ s : State, P s → P { s with ctrl := { s.ctrl with wait := false } }

namespace ModeKeeps

variable {P : State → Prop} (k : ModeKeeps P)

include k

theorem leaveRed (s : State) (g : GroupId) (h : P s) : P (s.leaveRed g) := by
  unfold State.leaveRed
  split
  · exact k.congr s _ rfl rfl rfl rfl (.inl rfl) h
  · exact k.congr s _ rfl rfl rfl rfl (.inl rfl) h

theorem followKeeps : FollowKeeps P where
  follow := fun s h => k.congr s _ rfl rfl rfl rfl (.inl rfl) h
  draw := fun s _ h => k.congr s _ rfl rfl rfl rfl (.inl rfl) h
  grant := fun s g _ h => k.leaveRed s g h
  seq := k.seqStep
  flash := fun s _ h => k.enterMode s _ (by nofun) (by nofun) h
  lamps := fun s h => k.congr s _ rfl rfl rfl rfl (.inl rfl) h

theorem react (s : State) (h : P s) : P s.react := k.followKeeps.react s h

theorem flashSet (s : State) (h : P s) : P s.flashSet := by
  unfold State.flashSet
  split
  · exact k.enterMode s _ (by nofun) (by nofun) h
  · exact k.enterMode s _ (by nofun) (by nofun) h
  · rename_i hm
    split
    · exact k.enterMode s _ (by nofun) (by nofun) h
    · exact k.setWait s hm h
  all_goals exact h

theorem enterJudged (s : State) (m : Mode) (h1 : m ≠ .dark) (h2 : m ≠ .loading) (h : P s) :
    P (s.enterJudged m) := by
  unfold State.enterJudged
  dsimp only
  split
  · exact k.flashSet _ (k.enterMode s m h1 h2 h)
  · exact k.enterMode s m h1 h2 h

theorem faultEvent (s : State) (r : Reason) (h : P s) : P (s.faultEvent r) := by
  unfold State.faultEvent
  split
  · exact k.congr s _ rfl rfl rfl rfl (.inl rfl) h
  · exact k.enterMode _ _ (by nofun) (by nofun) (k.congr s _ rfl rfl rfl rfl (.inl rfl) h)

theorem selfCheckFail (s : State) (c : ChanId) (h : P s) : P (s.selfCheckFail c) :=
  k.react _ (k.faultEvent _ _ (k.congr s _ rfl rfl rfl rfl (.inl rfl) h))

theorem latchConflict (s : State) (c : ConflictCause) (h : P s) : P (s.latchConflict c) := by
  unfold State.latchConflict
  split
  · exact h
  · exact k.faultEvent _ _ (k.congr s _ rfl rfl rfl rfl (.inl rfl) h)

theorem latchRedOut (s : State) (g : GroupId) (h : P s) : P (s.latchRedOut g) := by
  unfold State.latchRedOut
  split
  · exact h
  · exact k.faultEvent _ _ (k.congr s _ rfl rfl rfl rfl (.inl rfl) h)

theorem alsoRedOut (l : List GroupId) (s : State) (h : P s) : P (s.alsoRedOut l) := by
  cases l with
  | nil => exact h
  | cons g l => exact k.latchRedOut _ _ (k.congr s _ rfl rfl rfl rfl (.inl rfl) h)

theorem alsoConflict (l : List (GroupId × GroupId)) (s : State) (h : P s) : P (s.alsoConflict l) := by
  cases l with
  | nil => exact h
  | cons g l => exact k.latchConflict _ _ (k.congr s _ rfl rfl rfl rfl (.inl rfl) h)

theorem planFault (s : State) (c : Nat) (hr : s.planRead.readState ≠ .notStarted) (h : P s) : P (s.planFault c) :=
  k.react _ (k.enterMode _ _ (by nofun) (by nofun) (k.congr s _ rfl rfl rfl rfl (.inr hr) h))

/-! ### The claim unit -/

theorem only {s t : State} (e : s.onlyClaims t) (h : P s) : P t := by
  unfold State.onlyClaims at e
  rw [e]
  exact k.congr s _ rfl rfl rfl rfl (.inl rfl) h

theorem claimEdge (s : State) (n : RouteId) (q : Priority) (h : P s) : P (s.claimEdge n q) := by
  rcases s.claimEdge_cases n q with ⟨e, _⟩ | ⟨p, _, _, _, e⟩ | e
  · rw [e]
    exact h
  · rw [e]
    exact k.arbitrate _ (k.only (State.offerOwn_only _ p _) (k.congr s _ rfl rfl rfl rfl (.inl rfl) h))
  · rw [e]
    exact k.congr s _ rfl rfl rfl rfl (.inl rfl) h

theorem checkOut (s : State) (n : RouteId) (h : P s) : P (s.checkOut n) := by
  rcases s.checkOut_cases n with ⟨_, e⟩ | e | ⟨_, e⟩
  · rw [e]
    exact k.arbitrate _ (k.congr s _ rfl rfl rfl rfl (.inl rfl) h)
  · rw [e]
    exact h
  · rw [e]
    exact k.congr s _ rfl rfl rfl rfl (.inl rfl) h

theorem edgeByMode (s : State) (d : LocalId) (f : LocalDef) (h : P s) : P (s.edgeByMode d f) := by
  unfold State.edgeByMode
  split
  · exact h
  · exact h
  · exact k.congr s _ rfl rfl rfl rfl (.inl rfl) h
  · exact k.claimEdge s _ _ h
  · exact k.checkOut s _ h

theorem claimBoundary (s : State) (p : Plan) (h : P s) : P (s.claimBoundary p) := by
  rw [State.claimBoundary_eq]
  have h1 := k.only (s.claimSteps_only p) h
  split
  · exact k.arbitrate _ h1
  · exact h1

/-! ### The frame boundary -/

theorem cycleOutput (s : State) (p : Plan) (c : Cycle) (d : Bool) (h : P s) : P (s.cycleOutput p c d) :=
  k.react _ (k.takeNotices s _ h)

theorem cycleBoundary (s : State) (p : Plan) (heard : Bool) (h : P s) : P (s.cycleBoundary p heard) := by
  have h1 : P (State.requestMark { s with cycle := (s.cycleSteps p heard).1 } p) := by
    unfold State.requestMark
    split
    · exact k.congr s _ rfl rfl rfl rfl (.inl rfl) h
    · exact k.congr s _ rfl rfl rfl rfl (.inl rfl) h
  exact k.cycleOutput _ _ _ _ h1

theorem remoteBoundary (s : State) (h : P s) : P s.remoteBoundary := k.react _ (k.congr s _ rfl rfl rfl rfl (.inl rfl) h)

theorem claimsBoundary (s : State) (p : Plan) (h : P s) : P (s.claimsBoundary p) :=
  k.react _ (k.claimBoundary s p h)

theorem blocksBoundary (s : State) (p : Plan) (heard : Bool) (n : Nat) (h : P s) :
    P (s.blocksBoundary p heard n) := by
  unfold State.blocksBoundary
  split
  · exact k.claimsBoundary _ p (k.remoteBoundary _ (k.cycleBoundary s p heard h))
  · exact k.remoteBoundary _ (k.claimsBoundary _ p (k.cycleBoundary s p heard h))
  · exact k.claimsBoundary _ p (k.cycleBoundary _ p heard (k.remoteBoundary s h))
  · exact k.cycleBoundary _ p heard (k.claimsBoundary _ p (k.remoteBoundary s h))
  · exact k.remoteBoundary _ (k.cycleBoundary _ p heard (k.claimsBoundary s p h))
  · exact k.cycleBoundary _ p heard (k.remoteBoundary _ (k.claimsBoundary s p h))

theorem planBoundary (s : State) (heard : Bool) (h : P s) : P (s.planBoundary heard) := by
  unfold State.planBoundary
  split
  · exact h
  · rename_i p _
    have h1 := k.blocksBoundary (s.draw 6).2 p heard (s.draw 6).1 (k.congr s _ rfl rfl rfl rfl (.inl rfl) h)
    exact k.congr ((s.draw 6).2.blocksBoundary p heard (s.draw 6).1) _ rfl rfl rfl rfl (.inl rfl) h1

theorem frameBoundary (s : State) (heard : Bool) (age : Nat) (o : StationId → Outcome) (h : P s) :
    P (s.frameBoundary heard age o) := by
  have e := (s.atBoundary_law age o).1
  have e1 : (s.atBoundary age o).ctrl = s.ctrl := (congrArg State.ctrl e).trans rfl
  have e2 : (s.atBoundary age o).seq = s.seq := (congrArg State.seq e).trans rfl
  have e3 : (s.atBoundary age o).planRead = s.planRead := (congrArg State.planRead e).trans rfl
  have h1 : P (s.atBoundary age o) := k.congr s _ (by rw [e1]) (by rw [e1]) (by rw [e1]) e2 (.inl e3) h
  rw [State.frameBoundary_eq]
  exact k.congr ((s.atBoundary age o).planBoundary heard) _ rfl rfl rfl rfl (.inl rfl) (k.planBoundary _ heard h1)

theorem runEnd (s : State) (len : Nat) (edge : Bool) (h : P s) : P (s.runEnd len edge) := by
  rw [State.runEnd_eq]
  repeat' split
  all_goals first
    | exact k.congr s _ rfl rfl rfl rfl (.inl rfl) h
    | exact k.frameBoundary _ _ _ _ (k.congr s _ rfl rfl rfl rfl (.inl rfl) h)

end ModeKeeps

set_option maxHeartbeats 1000000 in
/-- Every command keeps a property of mode and sequencer that each move of theirs keeps, start-up reset and its
release among them where the command is one of the two. -/
theorem ModeKeeps.exec {P : State → Prop} (k : ModeKeeps P) (c : Instr) (s t : State)
    (reset : (∃ cause, c = .startUpReset cause) → ∀ u : State, P u.resetAll)
    (release : c = .resetRelease → s.ctrl.mode = .dark → ∀ u : State, u.ctrl = s.ctrl →
      P u → P (u.released.enterMode .loading))
    (e : Sys2Proof.Machine.exec c s = .next t) (h : P s) : P t := by
  have kc : ∀ u : State, u.ctrl.mode = s.ctrl.mode → u.ctrl.timer = s.ctrl.timer → u.ctrl.wait = s.ctrl.wait →
      u.seq = s.seq → u.planRead = s.planRead ∨ s.planRead.readState ≠ .notStarted → P u :=
    fun u h1 h2 h3 h4 h5 => k.congr s u h1 h2 h3 h4 h5 h
  have kr : ∀ u : State, u.ctrl.mode = s.ctrl.mode → u.ctrl.timer = s.ctrl.timer → u.ctrl.wait = s.ctrl.wait →
      u.seq = s.seq → u.planRead = s.planRead ∨ s.planRead.readState ≠ .notStarted → P u.react :=
    fun u h1 h2 h3 h4 h5 => k.react u (kc u h1 h2 h3 h4 h5)
  have kq : ∀ row levels, P (s.receiveRow row levels) := fun row levels => by
    obtain ⟨d, q⟩ := s.receiveRow_diag row levels
    rw [q]
    exact kc _ rfl rfl rfl rfl (.inl rfl)
  cases c <;> (have e2 : _ = t := (by injection e); rw [← e2]; clear e e2)
  case startUpReset cause =>
    unfold State.startUpReset
    cases cause with
    | powerOn => exact k.congr s.resetAll _ rfl rfl rfl rfl (.inl rfl) (reset ⟨_, rfl⟩ s)
    | supplyFall => exact k.congr s.resetAll _ rfl rfl rfl rfl (.inl rfl) (reset ⟨_, rfl⟩ s)
    | resetLine held =>
      dsimp only
      split
      · exact reset ⟨_, rfl⟩ _
      · exact kc _ rfl rfl rfl rfl (.inl rfl)
    | supplyReached => exact kc _ rfl rfl rfl rfl (.inl rfl)
    | resetLineHigh held => exact kc _ rfl rfl rfl rfl (.inl rfl)
  case resetRelease =>
    rcases s.resetRelease_cases with ⟨hm, e⟩ | e
    · exact e ▸ k.react _ (release rfl hm _ rfl h)
    · rw [e]; exact h
  case frameTimerExpiry line =>
    unfold State.frameTimerExpiry
    dsimp only
    repeat' split
    all_goals first | with_reducible exact h | exact kc _ rfl rfl rfl rfl (.inl rfl)
  case dominantRunEnd len edge =>
    unfold State.dominantRunEnd
    dsimp only
    repeat' split
    · exact k.runEnd _ _ _ (kc _ rfl rfl rfl rfl (.inl rfl))
    · exact kc _ rfl rfl rfl rfl (.inl rfl)
  case joinWindowClose =>
    unfold State.joinWindowClose
    repeat' split
    all_goals first | with_reducible exact h | exact k.frameBoundary _ _ _ _ h
  case lineStuck run =>
    show P (s.lineStuck run)
    rw [State.lineStuck_eq]
    repeat' split
    · exact kc _ rfl rfl rfl rfl (.inl rfl)
    · exact k.frameBoundary _ _ _ _ (kc _ rfl rfl rfl rfl (.inl rfl))
    · exact h
  case markDriveEnd =>
    unfold State.markDriveEnd
    repeat' split
    all_goals first | with_reducible exact h | (with_reducible refine kr _ ?_ ?_ ?_ ?_ (.inl ?_)) <;> rfl | exact kc _ rfl rfl rfl rfl (.inl rfl)
  case frameSlip =>
    unfold State.frameSlip
    repeat' split
    all_goals first | with_reducible exact h | (with_reducible refine kr _ ?_ ?_ ?_ ?_ (.inl ?_)) <;> rfl | exact kc _ rfl rfl rfl rfl (.inl rfl)
  case recordTransmission =>
    unfold State.recordTransmission
    repeat' split
    all_goals first | with_reducible exact h | (with_reducible refine kr _ ?_ ?_ ?_ ?_ (.inl ?_)) <;> rfl | exact kc _ rfl rfl rfl rfl (.inl rfl)
  case recordTransmissionEnd =>
    unfold State.recordTransmissionEnd
    repeat' split
    all_goals first | with_reducible exact h | (with_reducible refine kr _ ?_ ?_ ?_ ?_ (.inl ?_)) <;> rfl | exact kc _ rfl rfl rfl rfl (.inl rfl)
  case collision m =>
    unfold State.collision
    repeat' split
    all_goals first | with_reducible exact h | (with_reducible refine kr _ ?_ ?_ ?_ ?_ (.inl ?_)) <;> rfl | exact kc _ rfl rfl rfl rfl (.inl rfl)
  case ownSlotEnd =>
    unfold State.ownSlotEnd
    repeat' split
    all_goals first | with_reducible exact h | (with_reducible refine kr _ ?_ ?_ ?_ ?_ (.inl ?_)) <;> rfl | exact kc _ rfl rfl rfl rfl (.inl rfl)
  case silentFaultHoldEnd =>
    unfold State.silentFaultHoldEnd
    repeat' split
    all_goals first | with_reducible exact h | (with_reducible refine kr _ ?_ ?_ ?_ ?_ (.inl ?_)) <;> rfl | exact kc _ rfl rfl rfl rfl (.inl rfl)
  case listenEnd =>
    unfold State.listenEnd
    repeat' split
    all_goals first | with_reducible exact h | (with_reducible refine kr _ ?_ ?_ ?_ ?_ (.inl ?_)) <;> rfl | exact kc _ rfl rfl rfl rfl (.inl rfl)
  case slotSilent k1 =>
    unfold State.slotSilent
    repeat' split
    all_goals first | with_reducible exact h | (with_reducible refine kr _ ?_ ?_ ?_ ?_ (.inl ?_)) <;> rfl | exact kc _ rfl rfl rfl rfl (.inl rfl)
  case slotReception k1 pos levels further =>
    unfold State.slotReception
    repeat' split
    all_goals first | with_reducible exact h | (with_reducible refine kr _ ?_ ?_ ?_ ?_ (.inl ?_)) <;> rfl | exact kc _ rfl rfl rfl rfl (.inl rfl)
  case peerClassification k1 a =>
    unfold State.peerClassification
    repeat' split
    all_goals first | with_reducible exact h | (with_reducible refine kr _ ?_ ?_ ?_ ?_ (.inl ?_)) <;> rfl | exact kc _ rfl rfl rfl rfl (.inl rfl)
  case startHoldEnd =>
    unfold State.startHoldEnd
    repeat' split
    all_goals first | with_reducible exact h | (with_reducible refine kr _ ?_ ?_ ?_ ?_ (.inl ?_)) <;> rfl | exact kc _ rfl rfl rfl rfl (.inl rfl)
  case requestedPatternChange =>
    unfold State.requestedPatternChange
    repeat' split
    all_goals first | with_reducible exact h | (with_reducible refine kr _ ?_ ?_ ?_ ?_ (.inl ?_)) <;> rfl | exact kc _ rfl rfl rfl rfl (.inl rfl)
  case initialLevel d =>
    unfold State.initialLevel
    repeat' split
    all_goals first | with_reducible exact h | (with_reducible refine kr _ ?_ ?_ ?_ ?_ (.inl ?_)) <;> rfl | exact kc _ rfl rfl rfl rfl (.inl rfl)
  case detectorFallingEdge d =>
    unfold State.detectorFallingEdge
    repeat' split
    all_goals first | with_reducible exact h | (with_reducible refine kr _ ?_ ?_ ?_ ?_ (.inl ?_)) <;> rfl | exact kc _ rfl rfl rfl rfl (.inl rfl)
  case pulseOccupancyEnd d =>
    unfold State.pulseOccupancyEnd
    repeat' split
    all_goals first | with_reducible exact h | (with_reducible refine kr _ ?_ ?_ ?_ ?_ (.inl ?_)) <;> rfl | exact kc _ rfl rfl rfl rfl (.inl rfl)
  case faultStuck d =>
    unfold State.faultStuck
    repeat' split
    all_goals first | with_reducible exact h | (with_reducible refine kr _ ?_ ?_ ?_ ?_ (.inl ?_)) <;> rfl | exact kc _ rfl rfl rfl rfl (.inl rfl)
  case faultSilent d =>
    unfold State.faultSilent
    repeat' split
    all_goals first | with_reducible exact h | (with_reducible refine kr _ ?_ ?_ ?_ ?_ (.inl ?_)) <;> rfl | exact kc _ rfl rfl rfl rfl (.inl rfl)
  case flashPhaseChange =>
    unfold State.flashPhaseChange
    repeat' split
    all_goals first | with_reducible exact h | (with_reducible refine kr _ ?_ ?_ ?_ ?_ (.inl ?_)) <;> rfl | exact kc _ rfl rfl rfl rfl (.inl rfl)
  case settleEnd c =>
    unfold State.settleEnd
    repeat' split
    all_goals first | with_reducible exact h | (with_reducible refine kr _ ?_ ?_ ?_ ?_ (.inl ?_)) <;> rfl | exact kc _ rfl rfl rfl rfl (.inl rfl)
  case uncommandedOn c =>
    unfold State.uncommandedOn
    repeat' split
    all_goals first | with_reducible exact h | (with_reducible refine kr _ ?_ ?_ ?_ ?_ (.inl ?_)) <;> rfl | exact kc _ rfl rfl rfl rfl (.inl rfl)
  case lampOut c =>
    unfold State.lampOut
    repeat' split
    all_goals first | with_reducible exact h | (with_reducible refine kr _ ?_ ?_ ?_ ?_ (.inl ?_)) <;> rfl | exact kc _ rfl rfl rfl rfl (.inl rfl)
  case diagReplyEnd =>
    unfold State.diagReplyEnd
    repeat' split
    all_goals first | with_reducible exact h | (with_reducible refine kr _ ?_ ?_ ?_ ?_ (.inl ?_)) <;> rfl | exact kc _ rfl rfl rfl rfl (.inl rfl)
  case stuckEnd =>
    unfold State.stuckEnd
    dsimp only
    repeat' split
    all_goals first | with_reducible exact h | (with_reducible refine kr _ ?_ ?_ ?_ ?_ (.inl ?_)) <;> rfl | exact kc _ rfl rfl rfl rfl (.inl rfl)
  case peerLost k1 =>
    unfold State.peerLost
    dsimp only
    repeat' split
    all_goals first | with_reducible exact h | (with_reducible refine kr _ ?_ ?_ ?_ ?_ (.inl ?_)) <;> rfl | exact kc _ rfl rfl rfl rfl (.inl rfl)
  case peerAbsent k1 =>
    unfold State.peerAbsent
    dsimp only
    repeat' split
    all_goals first | with_reducible exact h | (with_reducible refine kr _ ?_ ?_ ?_ ?_ (.inl ?_)) <;> rfl | exact kc _ rfl rfl rfl rfl (.inl rfl)
  case patternLineChange line level held =>
    unfold State.patternLineChange State.judgePair
    dsimp only
    repeat' split
    all_goals first | with_reducible exact h | (with_reducible refine kr _ ?_ ?_ ?_ ?_ (.inl ?_)) <;> rfl | exact kc _ rfl rfl rfl rfl (.inl rfl)
  case stationQuery l => exact kq _ l
  case groupsQuery l => exact kq _ l
  case detectorsQuery l => exact kq _ l
  case peersQuery l => exact kq _ l
  case claimsQuery l => exact kq _ l
  case faultsQuery l => exact kq _ l
  case countsQuery l => exact kq _ l
  case errorReply l => exact kq _ l
  case diagFramingError l => exact kq _ l
  case diagCharacterIgnored l => exact kq _ l
  case detectorInputChange d l => exact kc _ rfl rfl rfl rfl (.inl rfl)
  case unsetWaitEnd =>
    unfold State.unsetWaitEnd
    repeat' split
    all_goals first | with_reducible exact h | exact k.cycleOutput _ _ _ _ (kc _ rfl rfl rfl rfl (.inl rfl))
  case divergenceAdoption =>
    unfold State.divergenceAdoption
    repeat' split
    all_goals first | with_reducible exact h | exact k.cycleOutput _ _ _ _ (kc _ rfl rfl rfl rfl (.inl rfl))
  case openGrant g =>
    unfold State.openGrant
    split
    · exact k.react _ (k.leaveRed s g h)
    · split
      · exact k.react s h
      · exact h
  case prepareEnd g =>
    unfold State.prepareEnd
    split
    · exact kr _ rfl rfl rfl rfl (.inl rfl)
    · exact h
  case minGreenEnd g =>
    unfold State.minGreenEnd
    split
    · exact kr _ rfl rfl rfl rfl (.inl rfl)
    · exact h
  case gapOut g =>
    unfold State.gapOut
    split
    · exact kr _ rfl rfl rfl rfl (.inl rfl)
    · exact h
  case maxDone g =>
    unfold State.maxDoneEvent
    split
    · exact kr _ rfl rfl rfl rfl (.inl rfl)
    · exact h
  case clearingEnd g =>
    unfold State.clearingEnd
    split
    · exact kr _ rfl rfl rfl rfl (.inl rfl)
    · exact h
  case manualChange a b =>
    unfold State.manualChange
    dsimp only
    repeat' split
    all_goals first | (with_reducible refine k.react _ ?_; exact k.arbitrate _ (kc _ rfl rfl rfl rfl (.inl rfl))) | exact kc _ rfl rfl rfl rfl (.inl rfl)
  case advancePress a b =>
    unfold State.advancePress
    dsimp only
    repeat' split
    all_goals first | (with_reducible refine k.react _ ?_; exact k.advance _ (kc _ rfl rfl rfl rfl (.inl rfl))) | exact kc _ rfl rfl rfl rfl (.inl rfl)
  case detectorRisingEdge d =>
    unfold State.detectorRisingEdge
    repeat' split
    all_goals first | with_reducible exact h | (with_reducible refine k.react _ ?_; exact k.edgeByMode _ _ _ (kc _ rfl rfl rfl rfl (.inl rfl)))
  case withdrawalDetected a b =>
    unfold State.withdrawalDetected
    dsimp only
    repeat' split
    all_goals first | with_reducible exact h | (with_reducible refine k.react _ ?_; exact k.arbitrate _ (kc _ rfl rfl rfl rfl (.inl rfl))) | exact kc _ rfl rfl rfl rfl (.inl rfl)
  case claimReady a b =>
    unfold State.claimReady
    repeat' split
    all_goals first | with_reducible exact h | (with_reducible refine k.react _ ?_; exact k.arbitrate _ (kc _ rfl rfl rfl rfl (.inl rfl)))
  case claimArrived a b =>
    unfold State.claimArrived
    dsimp only
    repeat' split
    all_goals first | with_reducible exact h | (with_reducible refine k.react _ ?_; exact k.arbitrate _ (kc _ rfl rfl rfl rfl (.inl rfl))) | exact kc _ rfl rfl rfl rfl (.inl rfl)
  case holdEnd a b =>
    unfold State.holdEnd
    repeat' split
    all_goals first | with_reducible exact h | (with_reducible refine k.react _ ?_; exact k.arbitrate _ (kc _ rfl rfl rfl rfl (.inl rfl)))
  case claimLifetimeEnd a b =>
    unfold State.claimLifetimeEnd
    dsimp only
    repeat' split
    all_goals first | with_reducible exact h | (with_reducible refine k.react _ ?_; exact k.arbitrate _ (kc _ rfl rfl rfl rfl (.inl rfl))) | exact kc _ rfl rfl rfl rfl (.inl rfl)
  case senseChange a b c =>
    unfold State.senseChange
    dsimp only
    repeat' split
    all_goals first | (with_reducible refine k.selfCheckFail _ _ ?_; exact kc _ rfl rfl rfl rfl (.inl rfl)) | exact kc _ rfl rfl rfl rfl (.inl rfl)
  case conflict a b =>
    unfold State.conflictEvent
    split
    · exact k.react _ (k.alsoRedOut _ _ (k.latchConflict s _ h))
    · exact h
  case greenInFlash g =>
    unfold State.greenInFlash
    split
    · exact k.react _ (k.latchConflict s _ h)
    · exact h
  case redOut g =>
    unfold State.redOutEvent
    split
    · exact k.react _ (k.alsoConflict _ _ (k.latchRedOut s _ h))
    · exact h
  case selfCheckPass =>
    unfold State.selfCheckPass
    split
    · exact k.react _ (k.enterJudged _ _ (by nofun) (by nofun) (kc _ rfl rfl rfl rfl (.inl rfl)))
    · exact h
  case selfCheckSettleEnd =>
    unfold State.selfCheckSettleEnd
    dsimp only
    repeat' split
    all_goals first | with_reducible exact h | (with_reducible refine k.selfCheckFail _ _ ?_; exact kc _ rfl rfl rfl rfl (.inl rfl)) | exact kc _ rfl rfl rfl rfl (.inl rfl)
  case startFlashEnd =>
    unfold State.startFlashEnd
    split
    · exact k.react _ (k.enterJudged s _ (by nofun) (by nofun) h)
    · exact h
  case allRedEnd =>
    have h1 := k.react _ (k.enterMode s .running (by nofun) (by nofun) h)
    unfold State.allRedEnd
    dsimp only
    repeat' split
    · exact k.react _ (k.flashSet _ h1)
    · exact h1
    · exact h
  case flashRequestChange a b =>
    unfold State.flashRequestChange State.flashCleared
    dsimp only
    repeat' split
    · exact kc _ rfl rfl rfl rfl (.inl rfl)
    · exact kc _ rfl rfl rfl rfl (.inl rfl)
    · exact k.react _ (k.flashSet _ (kc _ rfl rfl rfl rfl (.inl rfl)))
    · exact k.react _ (k.clearWait _ (kc _ rfl rfl rfl rfl (.inl rfl)))
    · exact k.react _ (k.enterJudged _ _ (by nofun) (by nofun) (kc _ rfl rfl rfl rfl (.inl rfl)))
    all_goals exact kr _ rfl rfl rfl rfl (.inl rfl)
  case panelFaultReset a b =>
    unfold State.panelFaultReset
    dsimp only
    split
    · refine k.react _ ?_
      unfold State.faultResetOrders
      dsimp only
      split
      · exact k.enterMode _ _ (by nofun) (by nofun) (kc _ rfl rfl rfl rfl (.inl rfl))
      · exact kc _ rfl rfl rfl rfl (.inl rfl)
    · exact kc _ rfl rfl rfl rfl (.inl rfl)
  case transferRetry =>
    unfold State.transferRetry
    split
    · rename_i hd
      exact kc _ rfl rfl rfl rfl (.inr (State.reading_of_retryDue hd))
    · exact h
  case planTransfer levels =>
    unfold State.planTransfer State.transferDone
    split
    · rename_i hd
      have hr := State.reading_of_transferring hd
      dsimp only
      repeat' split
      · exact k.planFault _ _ hr (kc _ rfl rfl rfl rfl (.inr hr))
      all_goals first | exact kc _ rfl rfl rfl rfl (.inr hr) | exact h
    · exact h
  case transferFailure levels =>
    unfold State.transferFailure State.transferFailed
    split
    · rename_i hd
      have hr := State.reading_of_transferring hd
      repeat' split
      · exact h
      · exact kc _ rfl rfl rfl rfl (.inr hr)
      · exact k.planFault _ _ hr h
    · exact h
  case planValidation =>
    unfold State.planValidation
    split
    · rename_i hd
      have hr := State.reading_of_checking hd
      split
      · exact k.react _ (k.enterMode _ _ (by nofun) (by nofun) (kc _ rfl rfl rfl rfl (.inr hr)))
      · exact k.planFault _ _ hr h
    · exact h

/-- Beside `ModeKeeps`: start-up reset, its release and the tick keep `P`. -/
structure ModeTimesKeep (P : State → Prop) : Prop extends ModeKeeps P where
  reset : ∀ s : State, P s.resetAll
  release : ∀ s : State, s.ctrl.mode = .dark → P s → P (s.released.enterMode .loading)
  tick : ∀ s : State, P s → P s.tick

theorem ModeTimesKeep.exec {P : State → Prop} (k : ModeTimesKeep P) (c : Instr) (s t : State)
    (e : Sys2Proof.Machine.exec c s = .next t) (h : P s) : P t :=
  k.toModeKeeps.exec c s t (fun _ => k.reset) (fun _ hm u hu => k.release u (hu ▸ hm)) e h

/-- Only start-up reset leads to DARK, and only its release to LOADING (R171, R172). -/
theorem exec_mode_early (c : Instr) (s t : State) (h1 : ∀ cause, c ≠ .startUpReset cause) (h2 : c ≠ .resetRelease)
    (e : Sys2Proof.Machine.exec c s = .next t) (hm : t.ctrl.mode = .dark ∨ t.ctrl.mode = .loading) :
    t.ctrl.mode = s.ctrl.mode := by
  have k : ModeKeeps fun u : State =>
      u.ctrl.mode = .dark ∨ u.ctrl.mode = .loading → u.ctrl.mode = s.ctrl.mode :=
    { congr := fun u v h _ _ _ _ hu => by rw [h]; exact hu
      enterMode := fun u m a b _ hx => by
        rw [State.enterMode_mode] at hx
        exact absurd hx (fun y => y.elim a b)
      seqStep := fun u v he hu => by rw [State.seqStep_ctrl he]; exact hu
      arbitrate := fun u hu => by rw [State.arbitrate_ctrl]; exact hu
      advance := fun u hu => by rw [State.advance_ctrl]; exact hu
      takeNotices := fun _ _ hu => hu
      setWait := fun _ _ hu => hu
      clearWait := fun _ hu => hu }
  exact k.exec c s t (fun ⟨x, hx⟩ => absurd hx (h1 x)) (fun x => absurd x h2) e (fun _ => rfl) hm

/-- A plan read that has not begun begins at the release of start-up reset alone (R184, R192). -/
theorem exec_planRead_notStarted (c : Instr) (s t : State) (hc : c ≠ .resetRelease)
    (e : Sys2Proof.Machine.exec c s = .next t) (h : s.planRead.readState = .notStarted) :
    t.planRead.readState = .notStarted := by
  have k : ModeKeeps fun u : State => u.planRead.readState = .notStarted :=
    { congr := fun u v _ _ _ _ hp hu => hp.elim (fun x => by rw [x]; exact hu) (fun x => absurd hu x)
      enterMode := fun u m _ _ hu => by rw [State.enterMode_planRead]; exact hu
      seqStep := fun u v he hu => by rw [(State.seqStep_follows he).planRead_eq]; exact hu
      arbitrate := fun u hu => by rw [State.arbitrate_planRead]; exact hu
      advance := fun u hu => by rw [State.advance_planRead]; exact hu
      takeNotices := fun _ _ hu => hu
      setWait := fun _ _ hu => hu
      clearWait := fun _ hu => hu }
  exact k.exec c s t (fun _ _ => rfl) (fun x => absurd x hc) e h

end Sys2Proof.Machine
end

