-- ==== Sys2Proof/Laws/Pins.lean ====
section
/-! SUPPORT. Laws/Pins.lean: the bits of characters sent one after another, and the levels that follow from them. -/

namespace Sys2Proof.Machine

theorem charBits_length (b : Byte) : (charBits b).length = 10 := rfl

/-- Bit `k` of character `i` stands at place `10 * i + k` of the characters sent back to back (R2, R11). -/
theorem recordBits_get? (l : List Byte) (i k : Nat) (b : Byte) (h : l[i]? = some b) (hk : k < 10) :
    (recordBits l)[10 * i + k]? = (charBits b)[k]? := by
  induction l generalizing i with
  | nil => cases h
  | cons c l ih =>
    unfold recordBits
    rw [List.flatMap_cons]
    cases i with
    | zero =>
      cases h
      rw [List.getElem?_append_left]
      · simp
      · rw [charBits_length]; omega
    | succ i =>
      have e : (charBits c ++ l.flatMap charBits)[10 * (i + 1) + k]? = (recordBits l)[10 * i + k]? := by
        rw [List.getElem?_append_right]
        · rw [charBits_length, show 10 * (i + 1) + k - 10 = 10 * i + k by omega]; rfl
        · rw [charBits_length]; omega
      rw [e]
      exact ih i h

theorem recordBits_getD (l : List Byte) (i k : Nat) (b : Byte) (d : Bool) (h : l[i]? = some b) (hk : k < 10) :
    (recordBits l).getD (10 * i + k) d = (charBits b).getD k d := by
  rw [List.getD_eq_getElem?_getD, List.getD_eq_getElem?_getD, recordBits_get? l i k b h hk]

theorem recordBits_length (l : List Byte) : (recordBits l).length = 10 * l.length := by
  induction l with
  | nil => rfl
  | cons c l ih =>
    have e : recordBits (c :: l) = charBits c ++ recordBits l := List.flatMap_cons ..
    rw [e, List.length_append, charBits_length, ih, List.length_cons]
    omega

/-- Past the last stop bit there is no bit (R11). -/
theorem recordBits_end (l : List Byte) (n : Nat) (h : 10 * l.length ≤ n) : (recordBits l)[n]? = none :=
  List.getElem?_eq_none (by rw [recordBits_length]; exact h)

/-- No bit is sent where no record is. -/
theorem Line.sentBit_idle {l : Line} (h : l.sending = none) : l.sentBit = none := by
  unfold Line.sentBit; rw [h]; rfl

theorem Line.sending_of_sentBit {l : Line} {b : Bool} (h : l.sentBit = some b) : l.sending.isSome = true := by
  cases k : l.sending with
  | none => rw [Line.sentBit_idle k] at h; cases h
  | some n => rfl

/-- The bit that is sent is the one at the place the transmitter has reached (R11). -/
theorem Line.sentBit_at {l : Line} {n : Nat} (h : l.sending = some n) : l.sentBit = (recordBits l.snapshot)[n]? := by
  unfold Line.sentBit; rw [h]; rfl

/-- Bit `k` of character `i` of the record that is being sent (R2, R11). -/
theorem Line.sentBit_bit {l : Line} (i k : Nat) (b : Byte) (h : l.snapshot[i]? = some b) (hk : k < 10)
    (hs : l.sending = some (10 * i + k)) : l.sentBit = some ((charBits b).getD k true) := by
  rw [Line.sentBit_at hs, recordBits_get? _ i k b h hk, List.getD_eq_getElem?_getD,
    List.getElem?_eq_getElem (by rw [charBits_length]; exact hk)]
  rfl

/-- No mark being driven, the driver is dominant in the bits sent as 0 (R2, R11). -/
theorem State.drives_sent (s : State) (hm : s.line.markDrive = none) :
    s.drivesDominant = (s.line.sentBit == some false) := by
  unfold State.drivesDominant; rw [hm]; rfl

/-- A start bit, a data bit and a stop bit (R2, R195). -/
theorem charBits_bits (b : Byte) (d : Bool) : (charBits b).getD 0 d = false ∧
    (∀ j, j < 8 → (charBits b).getD (1 + j) d = b.getLsbD j) ∧ (charBits b).getD 9 d = true := by
  refine ⟨rfl, fun j hj => ?_, rfl⟩
  have h : j = 0 ∨ j = 1 ∨ j = 2 ∨ j = 3 ∨ j = 4 ∨ j = 5 ∨ j = 6 ∨ j = 7 := by omega
  rcases h with rfl | rfl | rfl | rfl | rfl | rfl | rfl | rfl <;> rfl

/-- What the corridor driver does in each bit of a record, no mark being driven (R11). -/
theorem State.drives_bit (s : State) (i k : Nat) (b : Byte) (h : s.line.snapshot[i]? = some b) (hk : k < 10)
    (hm : s.line.markDrive = none) (hs : s.line.sending = some (10 * i + k)) :
    s.drivesDominant = !((charBits b).getD k true) := by
  rw [s.drives_sent hm, Line.sentBit_bit i k b h hk hs]
  cases (charBits b).getD k true <;> rfl

/-- The diagnostic transmit pin in each bit of a reply (R195). -/
theorem State.diagPin_bit (s : State) (r : Reply) (i k : Nat) (b : Byte) (hr : s.diag = some r)
    (h : r.chars[i]? = some b) (hk : k < 10) : s.diagPin (some (10 * i + k)) = (charBits b).getD k true := by
  unfold State.diagPin State.diagBits
  rw [hr]
  exact recordBits_getD _ i k b true h hk

end Sys2Proof.Machine
end

