-- ==== Sys2Proof/Laws/LineMove.lean ====
section
/-! SUPPORT. Laws/LineMove.lean: what every command keeps of the line interface: who may drive, and an OFF line that rests. -/

namespace Sys2Proof.Machine

/-- From `l` to `m` the line interface keeps its drive law, a resting OFF line rests, and no line becomes OFF. -/
structure Line.moves (l m : Line) : Prop where
  drive : l.driveLaw → m.driveLaw
  rest : l.idleOff → m.idleOff
  off : m.st = .off → l.st = .off

theorem Line.moves_refl (l : Line) : l.moves l := ⟨id, id, id⟩

theorem Line.moves.trans {l m n : Line} (h : l.moves m) (k : m.moves n) : l.moves n :=
  ⟨fun x => k.drive (h.drive x), fun x => k.rest (h.rest x), fun x => h.off (k.off x)⟩

/-- An update that keeps the line state, and releases at most what is driven. -/
theorem Line.moves_keep {l m : Line} (h1 : m.st = l.st) (h2 : m.markDrive = l.markDrive ∨ m.markDrive = none)
    (h3 : m.sending = l.sending ∨ m.sending = none) (h4 : m.sfKind = l.sfKind)
    (h5 : m.txEnd = l.txEnd ∨ m.txEnd = none ∨ ¬ l.idleOff) : l.moves m := by
  refine ⟨fun ⟨a, b⟩ => ⟨fun x => ?_, fun x => ?_⟩, fun i => ?_, by rw [h1]; exact id⟩
  · rw [h1]
    apply a
    rcases x with x | x
    · left
      rcases h2 with h2 | h2 <;> rw [h2] at x
      · exact x
      · cases x
    · right
      rcases h3 with h3 | h3 <;> rw [h3] at x
      · exact x
      · cases x
  · rw [h1]
    rw [h4] at x
    exact b x
  · obtain ⟨b, d, e, f⟩ := i
    refine ⟨h1.trans b, ?_, ?_, h4.trans f⟩
    · rcases h3 with h3 | h3
      · exact h3.trans d
      · exact h3
    · rcases h5 with h5 | h5 | h5
      · exact h5.trans e
      · exact h5
      · exact absurd ⟨b, d, e, f⟩ h5

/-- A resting OFF line has nothing in a record. -/
theorem Line.inRecord_idle {l : Line} (h : l.inRecord = true) : ¬ l.idleOff := by
  rintro ⟨_, h2, h3, _⟩
  unfold Line.inRecord at h
  rw [h2, h3] at h
  cases h

/-- An update of anything else in the record. -/
theorem Line.moves_same {l m : Line} (h1 : m.st = l.st) (h2 : m.markDrive = l.markDrive)
    (h3 : m.sending = l.sending) (h4 : m.sfKind = l.sfKind) (h5 : m.txEnd = l.txEnd) : l.moves m :=
  Line.moves_keep h1 (Or.inl h2) (Or.inl h3) h4 (Or.inl h5)

theorem Line.countTransmission_moves (l : Line) : l.moves l.countTransmission := by
  refine ⟨Line.countTransmission_driveLaw l, fun h => ?_, fun h => ?_⟩
  · rw [(Line.countTransmission_st l).2.2.1 h.2.2.1]
    exact h
  · rcases (Line.countTransmission_st l).1 with k | k
    · rw [← k]
      exact h
    · rw [k] at h
      cases h

theorem Line.countBoundary_off (l : Line) (h : l.countBoundary.st = .off) : l.st = .off := by
  revert h
  unfold Line.countBoundary Line.countHold Line.countListen Line.holdOver
  split
  · split
    · exact id
    · dsimp only
      split <;> nofun
  · split
    · split
      · exact id
      · nofun
    · exact id

theorem Line.boundary_moves (l : Line) (age : Nat) : l.moves (l.boundary age) :=
  ⟨Line.boundary_driveLaw l age, Line.boundary_off l age, fun h =>
    Line.countBoundary_off { l with
      frameTimer := some age, pending := none, cycleMarkReq := l.cycleMarkReq && l.pending.isNone
      sending := none, outcomes := .tab fun _ => none } ((Line.countTransmission_moves _).off h)⟩

theorem Line.afterRun_moves (l : Line) (len : Nat) : l.moves (l.afterRun len) := by
  refine Line.moves_keep rfl (Or.inl rfl) ?_ rfl ?_
  · show (if 24 ≤ len then none else l.sending) = l.sending ∨ (if 24 ≤ len then none else l.sending) = none
    split
    · exact Or.inr rfl
    · exact Or.inl rfl
  · show (if l.inRecord = true ∧ 24 ≤ len then some TxEnd.slip else l.txEnd) = l.txEnd ∨ _ ∨ _
    split
    · rename_i h
      exact Or.inr (Or.inr (Line.inRecord_idle h.1))
    · exact Or.inl rfl

/-- A receiving line that becomes STUCK. -/
theorem Line.becomeStuck_moves (l : Line) (run : Nat) (h : l.st.receiving = true) : l.moves (l.becomeStuck run) := by
  refine ⟨fun _ => ⟨fun x => ?_, fun _ => Or.inr rfl⟩, fun k => ?_, nofun⟩
  · exact absurd x (by unfold Line.becomeStuck; simp)
  · rw [k.1] at h
    cases h

theorem State.frameBoundary_moves (s : State) (heard : Bool) (age : Nat) (o : StationId → Outcome) :
    s.line.moves (s.frameBoundary heard age o).line := by
  obtain ⟨q, x, e⟩ := s.frameBoundary_line heard age o
  rw [e]
  exact (Line.boundary_moves s.line age).trans (Line.moves_same rfl rfl rfl rfl rfl)

/-! ### The commands -/

theorem State.frameTimerExpiry_moves (s : State) (run : Option Nat) (reaches : Bool) :
    s.line.moves (s.frameTimerExpiry run reaches).line := by
  unfold State.frameTimerExpiry
  dsimp only
  repeat' split
  all_goals first
    | exact Line.moves_refl _
    | exact Line.moves_same rfl rfl rfl rfl rfl
    | skip
  all_goals
  · have hs : s.line.st = .active := by assumption
    refine ⟨fun h => ⟨fun _ => hs, h.2⟩, fun h => ?_, id⟩
    rw [h.1] at hs
    cases hs

theorem State.recordTransmission_moves (s : State) : s.line.moves s.recordTransmission.line := by
  unfold State.recordTransmission
  split
  · rename_i h
    have hs : s.line.st = .active := by
      unfold State.sendDue at h
      simp only [Bool.and_eq_true, beq_iff_eq] at h
      exact h.1.1.1.1
    refine ⟨fun h => ⟨fun _ => hs, h.2⟩, fun h => ?_, id⟩
    rw [h.1] at hs
    cases hs
  · exact Line.moves_refl _

theorem Line.slip_moves (l : Line) : l.moves l.slip := by
  unfold Line.slip
  split
  · rename_i h
    exact Line.moves_keep rfl (Or.inl rfl) (Or.inr rfl) rfl (Or.inr (Or.inr (Line.inRecord_idle h)))
  · exact Line.moves_refl _

theorem Line.readback_moves (l : Line) (r : Readback) : l.moves (l.readback r) := by
  have hb (b : Bool) (h : (l.sentBit == some b) = true) : ¬ l.idleOff := fun k => by
    rw [Line.sentBit_idle k.2.1] at h; cases h
  have hi (b : Bool) (h : (l.sentBit == some b || l.txEnd == some .judging) = true) : ¬ l.idleOff :=
    Line.inRecord_idle (by
      rcases (Bool.or_eq_true ..).mp h with h | h
      · unfold Line.inRecord; rw [Line.sending_of_sentBit (eq_of_beq h)]; rfl
      · unfold Line.inRecord; rw [h, Bool.or_true])
  unfold Line.readback Line.collide
  split <;> split
  · rename_i h
    exact Line.moves_keep rfl (Or.inl rfl) (Or.inr rfl) rfl (Or.inr (Or.inr (hb _ h)))
  · exact Line.moves_refl _
  · rename_i h
    exact Line.moves_keep rfl (Or.inl rfl) (Or.inr rfl) rfl (Or.inr (Or.inr (hb _ h)))
  · exact Line.moves_refl _
  · rename_i h
    rw [Bool.and_eq_true] at h
    exact Line.moves_keep rfl (Or.inl rfl) (Or.inr rfl) rfl (Or.inr (Or.inr (hi _ h.1)))
  · exact Line.moves_refl _

theorem Line.holdOver_moves (l : Line) (h : l.sfKind = .timed) : l.moves l.holdOver := by
  unfold Line.holdOver
  refine ⟨fun k => ⟨fun x => ?_, nofun⟩, fun k => ?_, fun k => ?_⟩
  · have := k.1 x
    have h2 := k.2 h
    rw [this] at h2
    rcases h2 with h2 | h2 <;> cases h2
  · have := k.2.2.2
    rw [h] at this
    cases this
  · dsimp only at k
    split at k <;> cases k

theorem Line.countListen_moves (l : Line) (h : l.st = .listen) : l.moves l.countListen := by
  unfold Line.countListen
  split
  · exact Line.moves_same rfl rfl rfl rfl rfl
  · refine ⟨fun k => ⟨fun _ => rfl, fun x => ?_⟩, fun k => ?_, nofun⟩
    · have h2 := k.2 x
      rw [h] at h2
      rcases h2 with h2 | h2 <;> cases h2
    · rw [k.1] at h
      cases h

theorem State.stuckEnd_moves (s : State) : s.line.moves s.stuckEnd.line := by
  unfold State.stuckEnd
  dsimp only
  split
  · rename_i h
    have hd : ∀ l : Line, l.markDrive = s.line.markDrive → l.sending = s.line.sending → s.line.driveLaw →
        ¬ (l.markDrive.isSome = true ∨ l.sending.isSome = true) := by
      intro l h1 h2 k x
      rw [h1, h2] at x
      have := k.1 x
      rw [h.1] at this
      cases this
    split
    · rename_i hk
      refine ⟨fun k => ⟨fun x => absurd x (hd _ rfl rfl k), fun x => ?_⟩, fun k => ?_, nofun⟩
      · dsimp only at x
        rw [hk] at x
        cases x
      · rw [k.1] at h
        exact absurd h.1 nofun
    · refine ⟨fun k => ⟨fun x => absurd x (hd _ rfl rfl k), fun _ => Or.inl rfl⟩, fun k => ?_, nofun⟩
      rw [k.1] at h
      exact absurd h.1 nofun
  · exact Line.moves_refl _

/-- A command of the line interface alone. -/
theorem exec_lineOnly_moves (c : Instr) (s t : State) (hq : lineOnly c = true) (e : exec c s = .next t) :
    s.line.moves t.line := by
  cases c <;> first
    | (cases hq; done)
    | (have e2 : _ = t := (by injection e); rw [← e2]; clear e e2 hq)
  case frameTimerExpiry line => exact s.frameTimerExpiry_moves line.run line.reaches
  case recordTransmission => exact s.recordTransmission_moves
  case stuckEnd => exact s.stuckEnd_moves
  case markDriveEnd =>
    unfold State.markDriveEnd
    split
    · exact Line.moves_keep rfl (Or.inr rfl) (Or.inl rfl) rfl (Or.inl rfl)
    · exact Line.moves_refl _
  case frameSlip =>
    unfold State.frameSlip
    split
    · exact (Line.slip_moves s.line).trans (Line.moves_same rfl rfl rfl rfl rfl)
    · exact Line.moves_refl _
  case recordTransmissionEnd =>
    unfold State.recordTransmissionEnd
    split
    · exact Line.moves_refl _
    · rename_i n h
      split
      · exact Line.moves_keep rfl (Or.inl rfl) (Or.inr rfl) rfl (Or.inr (Or.inr fun k => by rw [k.2.1] at h; cases h))
      · exact Line.moves_refl _
  case collision m => exact Line.readback_moves s.line m
  case ownSlotEnd =>
    unfold State.ownSlotEnd
    split
    · exact Line.countTransmission_moves _
    · exact Line.moves_refl _
  case silentFaultHoldEnd =>
    unfold State.silentFaultHoldEnd
    split
    · rename_i h
      exact Line.holdOver_moves _ h.1
    · exact Line.moves_refl _
  case listenEnd =>
    unfold State.listenEnd
    split
    · rename_i h
      exact Line.countListen_moves _ h.1
    · exact Line.moves_refl _
  case slotSilent k =>
    unfold State.slotSilent
    split
    · exact Line.moves_same rfl rfl rfl rfl rfl
    · exact Line.moves_refl _
  case slotReception k pos levels further =>
    unfold State.slotReception
    split
    · exact Line.moves_same rfl rfl rfl rfl rfl
    · exact Line.moves_refl _

theorem State.runEnd_moves (s : State) (len : Nat) (edge : Bool) : s.line.moves (s.runEnd len edge).line := by
  rw [State.runEnd_eq]
  have h := Line.afterRun_moves s.line len
  repeat' split
  · exact Line.moves_refl _
  · exact h.trans (State.frameBoundary_moves { s with line := s.line.afterRun len } _ _ _)
  · exact h.trans (State.frameBoundary_moves { s with line := s.line.afterRun len } _ _ _)
  · exact h

theorem State.dominantRunEnd_moves (s : State) (len : Nat) (edge : Bool) :
    s.line.moves (s.dominantRunEnd len edge).line := by
  have h : s.line.moves { s.line with run := none, recessive := 0 } := Line.moves_same rfl rfl rfl rfl rfl
  unfold State.dominantRunEnd
  dsimp only
  repeat' split
  · exact h.trans (State.runEnd_moves { s with line := { s.line with run := none, recessive := 0 } } len edge)
  · exact h

theorem State.joinWindowClose_moves (s : State) : s.line.moves s.joinWindowClose.line := by
  unfold State.joinWindowClose
  repeat' split
  all_goals first | exact Line.moves_refl _ | exact s.frameBoundary_moves _ _ _

theorem State.lineStuck_moves (s : State) (run : Nat) : s.line.moves (s.lineStuck run).line := by
  rw [State.lineStuck_eq]
  split
  · rename_i h
    have hr : s.line.st.receiving = true := by
      unfold Line.stuckBy at h
      rw [Bool.and_eq_true] at h
      exact h.1
    have h1 := Line.becomeStuck_moves s.line run hr
    split
    · exact h1
    · exact h1.trans (State.frameBoundary_moves { s with line := s.line.becomeStuck run } _ _ _)
  · exact Line.moves_refl _

theorem Line.tick_moves (l : Line) : l.moves l.tick := by
  unfold Line.tick
  refine ⟨fun h => ⟨fun x => h.1 ?_, h.2⟩, fun h => ⟨h.1, ?_, h.2.2⟩, id⟩
  · rcases x with x | x
    · left
      simpa using x
    · right
      simpa using x
  · show l.sending.map (· + 1) = none
    rw [h.2.1]
    rfl

end Sys2Proof.Machine
end

