-- ==== Sys2Proof/Laws/Peers.lean ====
section
/-! SUPPORT. Laws/Peers.lean: what the evaluation of a peer table entry leaves. -/

namespace Sys2Proof.Machine

theorem Peer.missed_of_self (e : Peer) (h : e.presence = .self) : e.missed = e := by
  unfold Peer.missed; rw [h]

theorem Peer.missed_badCount (e : Peer) : e.missed.badCount = e.badCount := by
  unfold Peer.missed
  split
  · rfl
  · rfl
  · split <;> rfl
  · split <;> rfl
  · split <;> rfl
  · split <;> rfl
  · rfl

theorem Peer.missed_not_self (e : Peer) (h : e.presence ≠ .self) : e.missed.presence ≠ .self := by
  unfold Peer.missed
  split
  · exact h
  · nofun
  · split
    · exact h
    · nofun
  · split
    · exact h
    · nofun
  · split
    · exact h
    · nofun
  · split
    · exact h
    · nofun
  · exact h

theorem Peer.good_badCount (f : Half) (r : Record) (e : Peer) : (e.good f r).badCount = e.badCount := by
  unfold Peer.good
  split
  · rfl
  · rfl
  · split <;> rfl
  all_goals rfl

/-- The last good record is absent in an ABSENT or SELF entry alone (R28). -/
def Peer.recordLaw (e : Peer) : Prop := e.record = none ↔ e.presence = .absent ∨ e.presence = .self

theorem Peer.evaluate_recordLaw (f : Half) (o : Outcome) (e : Peer) (h : Peer.recordLaw e) : Peer.recordLaw (e.evaluate f o) := by
  unfold Peer.recordLaw at *
  cases e with | mk pr run miss rec_ fresh bad =>
  have hc : ∀ r, classify f r ≠ .absent ∧ classify f r ≠ .self := by
    intro r; unfold classify; repeat' split
    all_goals exact ⟨nofun, nofun⟩
  cases o with
  | good r =>
    unfold Peer.evaluate Peer.good
    cases pr <;> simp [Peer.toHeard, Peer.classified, (hc r).1, (hc r).2] at h ⊢
    · split <;> simp [(hc r).1, (hc r).2]
    · exact h
  | bad =>
    unfold Peer.evaluate Peer.missed Peer.countBad
    cases pr <;> simp [Peer.toAbsent, Peer.toLost] at h ⊢
    all_goals first | exact h | (repeat' split <;> simp_all)
  | silent =>
    unfold Peer.evaluate Peer.missed
    cases pr <;> simp [Peer.toAbsent, Peer.toLost] at h ⊢
    all_goals first | exact h | (repeat' split <;> simp_all)
  | own => exact h

theorem Peer.classified_recordLaw (f : Half) (r : Record) (e : Peer) : Peer.recordLaw (e.classified f r) := by
  have hc : ∀ r, classify f r ≠ .absent ∧ classify f r ≠ .self := by
    intro r; unfold classify; repeat' split
    all_goals exact ⟨nofun, nofun⟩
  unfold Peer.recordLaw
  simp [Peer.classified, (hc r).1, (hc r).2]

end Sys2Proof.Machine
end

