-- ==== Sys2Proof/Laws/PlanPort.lean ====
section
/-! SUPPORT. Laws/PlanPort.lean: what the device makes of the data line of the plan memory port (R183). -/

namespace Sys2Proof.Machine

/-- Bit `i` of a byte read is the level at its place, the most significant bit first. -/
theorem portByte_bit (levels : List Bool) (i : Nat) (h : i < 8) :
    (portByte levels).getLsbD i = levels.getD (7 - i) true :=
  BitSet.has_bitsOf (fun i : Fin 8 => levels.getD (7 - i.val) true) ⟨i, h⟩

/-- The bytes of a block are read one after another, and reading them cannot fail. -/
theorem portRun_reads (n : Nat) (levels : List Bool) :
    portRun false (List.replicate n (.read true) ++ [.read false, .stop]) levels =
      .done ((List.range (n + 1)).map fun i => portByte ((levels.drop (8 * i)).take 8)) := by
  induction n generalizing levels with
  | zero => rfl
  | succ n ih =>
    rw [List.replicate_succ, List.cons_append, portRun, ih, List.range_succ_eq_map (n := n + 1)]
    simp only [List.map_cons, List.map_map, Function.comp_def, List.drop_drop, Nat.mul_zero, List.drop_zero]
    congr 3
    funext i
    rw [Nat.mul_succ, Nat.add_comm]

/-- What comes of a transfer of `count` bytes, by the levels that the device looks at. -/
theorem portRun_transfer (start count : Nat) (levels : List Bool) (h : 1 ≤ count) :
    portRun false (transferItems start count) levels =
      if levels.getD 0 true = false then .failed .dataLow
      else if levels.getD 1 true = true then .failed .noAckAddress
      else if levels.getD 2 true = true ∨ levels.getD 3 true = true then .failed .noAckBlockStart
      else if levels.getD 4 true = false then .failed .dataLow
      else if levels.getD 5 true = true then .failed .noAckAddress
      else .done ((List.range count).map fun i => portByte ((levels.drop (6 + 8 * i)).take 8)) := by
  obtain ⟨n, rfl⟩ : ∃ n, count = n + 1 := ⟨count - 1, by omega⟩
  have hd : ∀ k, (levels.drop k).headD true = levels.getD k true := by
    intro k; rw [List.headD_eq_head?_getD, List.head?_drop, List.getD_eq_getElem?_getD]
  have h0 := hd 0
  simp only [List.drop_zero] at h0
  simp only [transferItems, List.cons_append, List.nil_append, portRun, acknowledged, ← List.drop_one,
    List.drop_drop, Nat.reduceAdd, hd, h0, Nat.add_sub_cancel, portRun_reads]
  cases levels.getD 0 true <;> cases levels.getD 1 true <;> cases levels.getD 2 true <;> cases levels.getD 3 true <;>
    cases levels.getD 4 true <;> cases levels.getD 5 true <;> simp

end Sys2Proof.Machine
end

