-- ==== Sys2Proof/Laws/Queue.lean ====
section
/-! SUPPORT. Laws/Queue.lean: operations over the whole state leave the queue. -/

namespace Sys2Proof.Machine

theorem State.frameBoundary_pending (s : State) (h a o) : (s.frameBoundary h a o).pending = s.pending := by
  obtain ⟨_, _, _, _, _, _, _, _, _, _, _, _, _, hq, _⟩ := s.frameBoundary_taken s.line h a o
  exact hq

theorem State.faultEvent_pending (s : State) (r) : (s.faultEvent r).pending = s.pending := by
  unfold State.faultEvent; split
  · rfl
  · rw [State.enterMode_pending]; rfl

theorem State.offerOwn_pending (s : State) (p o) : (s.offerOwn p o).pending = s.pending := by
  have h := s.offerOwn_only p o; unfold State.onlyClaims at h; rw [h]

theorem State.claimEdge_pending (s : State) (n q) : (s.claimEdge n q).pending = s.pending := by
  rcases s.claimEdge_cases n q with ⟨h, _⟩ | ⟨p, _, _, _, h⟩ | h
  · rw [h]
  · rw [h, State.arbitrate_pending, State.offerOwn_pending]; rfl
  · rw [h]

theorem State.checkOut_pending (s : State) (n) : (s.checkOut n).pending = s.pending := by
  rcases s.checkOut_cases n with ⟨_, h⟩ | h | ⟨_, h⟩
  · rw [h, State.arbitrate_pending]; rfl
  · rw [h]
  · rw [h]; rfl

theorem State.planFault_pending (s : State) (c) : (s.planFault c).pending = s.pending := by
  unfold State.planFault; dsimp only
  rw [State.react_pending, State.enterMode_pending]; rfl

theorem State.selfCheckFail_pending (s : State) (c) : (s.selfCheckFail c).pending = s.pending := by
  unfold State.selfCheckFail; rw [State.react_pending, State.faultEvent_pending]

theorem State.cycleOutput_pending (s : State) (p c d) : (State.cycleOutput s p c d).pending = s.pending := (State.cycleOutput_follows s p c d).pending_eq

theorem State.runEnd_pending (s : State) (n e) : (s.runEnd n e).pending = s.pending := by
  rw [State.runEnd_eq]
  repeat' split
  all_goals first | rfl | (rw [State.frameBoundary_pending])

end Sys2Proof.Machine
end

