-- ==== Sys2Proof/Laws/Records.lean ====
section
/-! SUPPORT. Laws/Records.lean: station records: each field read back from the characters it is written in, and the CRC-16. -/

namespace Sys2Proof.Machine

/-- The low part of an append. -/
theorem extract_low {m n : Nat} (a : BitVec m) (b : BitVec n) : (a ++ b).extractLsb' 0 n = b := by
  apply BitVec.eq_of_getLsbD_eq
  intro i hi
  simp [BitVec.getLsbD_append, hi]

/-- The high part of an append. -/
theorem extract_high {m n : Nat} (a : BitVec m) (b : BitVec n) : (a ++ b).extractLsb' n m = a := by
  apply BitVec.eq_of_getLsbD_eq
  intro i hi
  simp [BitVec.getLsbD_append, hi]

/-- A half is its two bytes. -/
theorem half_join (h : Half) : h.extractLsb' 8 8 ++ h.extractLsb' 0 8 = h := by
  apply BitVec.eq_of_getLsbD_eq
  intro i hi
  simp only [BitVec.getLsbD_append, BitVec.getLsbD_extractLsb']
  by_cases h1 : i < 8
  · simp [h1]
  · simp [h1, show i - 8 < 8 by omega, show 8 + (i - 8) = i by omega]

/-- Three bytes joined. -/
theorem triple_join (h : BitVec 24) : h.extractLsb' 16 8 ++ h.extractLsb' 8 8 ++ h.extractLsb' 0 8 = h := by
  apply BitVec.eq_of_getLsbD_eq
  intro i hi
  simp only [BitVec.getLsbD_append, BitVec.getLsbD_extractLsb']
  by_cases h1 : i < 8
  · simp [h1]
  · by_cases h2 : i - 8 < 8
    · simp [h1, h2, show 8 + (i - 8) = i by omega]
    · simp [h1, h2, show i - 8 - 8 < 8 by omega, show 16 + (i - 8 - 8) = i by omega]

theorem claimChar_fields (a b c : Bool) (s : BitVec 2) (m : BitVec 3) :
   let v : BitVec 8 := BitVec.ofBool a ++ BitVec.ofBool b ++ s ++ BitVec.ofBool c ++ m
   v.extractLsb' 0 3 = m ∧ v.getLsbD 3 = c ∧ v.extractLsb' 4 2 = s ∧ v.getLsbD 6 = b ∧ v.getLsbD 7 = a := by
  revert a b c s m
  decide

theorem reportChar_fields (a b c d : BitVec 2) :
   let v : BitVec 8 := a ++ b ++ c ++ d
   v.extractLsb' 0 2 = d ∧ v.extractLsb' 2 2 = c ∧ v.extractLsb' 4 2 = b ∧ v.extractLsb' 6 2 = a := by
  revert a b c d
  decide

/-- A claim character read back (R26). -/
theorem ClaimField.ofChar_char (c : ClaimField) : ClaimField.ofChar c.char = c := by
  obtain ⟨s, r, e⟩ := c
  revert s r e
  decide

theorem claims_ofChar (l : List ClaimField) : (l.map ClaimField.char).map ClaimField.ofChar = l := by
  rw [List.map_map]
  conv => rhs; rw [← List.map_id l]
  exact List.map_congr_left fun c _ => ClaimField.ofChar_char c

/-- The service reports read back (R27). -/
theorem reportsOf_chars (l : List ReportField) : reportsOf (l.flatMap ReportField.chars) = l := by
  induction l with
  | nil => rfl
  | cons r l ih =>
    show reportsOf ((r.serial ++ r.origin) :: r.state :: l.flatMap ReportField.chars) = r :: l
    unfold reportsOf
    rw [ih]
    congr 1
    have h1 := extract_low r.serial r.origin
    have h2 := extract_high r.serial r.origin
    cases r
    simp_all

theorem reports_length (l : List ReportField) : (l.flatMap ReportField.chars).length = 2 * l.length := by
  induction l with
  | nil => rfl
  | cons r l ih => rw [List.flatMap_cons, List.length_append, ih]; simp [ReportField.chars]; omega

/-- A record with its CRC matches it (R16). -/
theorem crcMatches_withCrc (l : List Byte) : crcMatches (withCrc l) = true := by
  unfold crcMatches withCrc
  have : (l ++ halfBytes (crc16 l)).length - 2 = l.length := by simp [halfBytes]
  rw [this, List.drop_left, List.take_left]
  simp

/-- The length of a record in characters (R22). -/
theorem Record.encode_length (r : Record) : r.encode.length = 16 + r.claims.length + 2 * r.reports.length := by
  unfold Record.encode withCrc Record.fixedPart halfBytes tripleBytes
  simp only [List.length_append, reports_length, List.length_map, List.length_cons, List.length_nil]
  omega

/-- A record is read back from its characters (R22, R26, R27). -/
theorem Record.decode_encode (r : Record) (h1 : r.claims.length ≤ 2) (h2 : r.reports.length ≤ 3) : Record.decode r.encode = some r := by
  have hl := Record.encode_length r
  have hc0l := extract_low r.format r.station
  have hc0h := extract_high r.format r.station
  obtain ⟨a1, a2, a3, a4, a5⟩ := claimChar_fields r.manual r.clock r.checkPassed r.step r.mode
  obtain ⟨b1, b2, b3, b4⟩ := reportChar_fields (BitVec.ofNat 2 r.reports.length) (BitVec.ofNat 2 r.claims.length) r.requested r.active
  have d1 := extract_low r.target r.current
  have d2 := extract_high r.target r.current
  have hn : (BitVec.ofNat 2 r.claims.length).toNat = r.claims.length := by simp; omega
  have hm : (BitVec.ofNat 2 r.reports.length).toNat = r.reports.length := by simp; omega
  have e : r.encode = (r.format ++ r.station) :: (r.fingerprint.extractLsb' 0 8) :: (r.fingerprint.extractLsb' 8 8) ::
     (BitVec.ofBool r.manual ++ BitVec.ofBool r.clock ++ r.step ++ BitVec.ofBool r.checkPassed ++ r.mode) ::
     (BitVec.ofNat 2 r.reports.length ++ BitVec.ofNat 2 r.claims.length ++ r.requested ++ r.active) ::
     (r.target ++ r.current) :: (r.position.extractLsb' 0 8) :: (r.position.extractLsb' 8 8) ::
     (r.occupancy.extractLsb' 0 8) :: (r.occupancy.extractLsb' 8 8) :: (r.occupancy.extractLsb' 16 8) ::
     (r.faults.extractLsb' 0 8) :: (r.faults.extractLsb' 8 8) :: (r.faults.extractLsb' 16 8) ::
     (r.claims.map ClaimField.char ++ r.reports.flatMap ReportField.chars ++ halfBytes (crc16 (r.fixedPart ++ r.claims.map ClaimField.char ++ r.reports.flatMap ReportField.chars))) := by
    unfold Record.encode withCrc
    generalize crc16 _ = k
    unfold Record.fixedPart halfBytes tripleBytes
    simp only [List.cons_append, List.nil_append, List.append_assoc]
  rw [e] at hl ⊢
  generalize halfBytes _ = k at hl ⊢
  unfold Record.decode
  dsimp only at a1 a2 a3 a4 a5 b1 b2 b3 b4 ⊢
  rw [hl]
  have hrl : recordLength (BitVec.ofNat 2 r.reports.length ++ BitVec.ofNat 2 r.claims.length ++ r.requested ++ r.active) = some (16 + r.claims.length + 2 * r.reports.length) := by
    unfold recordLength
    dsimp only
    rw [b3, b4, hn, hm, if_neg (by omega)]
  rw [if_pos hrl, b3, b4, hn, hm, hc0l, hc0h, a1, a2, a3, a4, a5, b1, b2, d1, d2, half_join, half_join, triple_join, triple_join]
  have t1 : ((List.map ClaimField.char r.claims ++ List.flatMap ReportField.chars r.reports ++ k).take r.claims.length) = r.claims.map ClaimField.char := by
    rw [List.append_assoc]; exact List.take_left' (by simp)
  have t2 : ((List.map ClaimField.char r.claims ++ List.flatMap ReportField.chars r.reports ++ k).drop r.claims.length).take (2 * r.reports.length) = r.reports.flatMap ReportField.chars := by
    rw [List.append_assoc, List.drop_left' (by simp)]; exact List.take_left' (reports_length _)
  rw [t1, t2, claims_ofChar, reportsOf_chars]

/-- No two of a list agree under `f` where every pair, in its order, disagrees. -/
theorem repeats_eq_false {α : Type} (f : α → α → Bool) (l : List α) :
    repeats f l = false ↔ l.Pairwise fun a b => f a b = false := by
  induction l with
  | nil => simp [repeats]
  | cons a l ih => simp [repeats, ih]

/-- The content of a record is in range (R27). -/
theorem Record.inRange_iff (r : Record) : r.inRange = true ↔
    1 ≤ r.mode.toNat ∧ r.mode.toNat ≤ 6 ∧ r.step.toNat ≤ 2 ∧ r.current.toNat ≤ 12 ∧ r.target.toNat ≤ 12 ∧
    r.position.toNat ≤ 2399 ∧ (r.clock = false → r.position = 0) ∧
    r.claims.Pairwise (fun a b => a.route ≠ b.route ∧ a.serial ≠ b.serial) ∧
    ∀ q ∈ r.reports, q.state = 1 ∨ q.state = 2 := by
  unfold Record.inRange
  simp only [Bool.and_eq_true, decide_eq_true_eq, Bool.not_eq_true', repeats_eq_false, Bool.or_eq_false_iff,
    beq_eq_false_iff_ne, List.all_eq_true, Bool.or_eq_true, beq_iff_eq, and_assoc]
  cases r.clock <;> simp

end Sys2Proof.Machine
end

