-- ==== Sys2Proof/Laws/Service.lean ====
section
/-! SUPPORT. Laws/Service.lean: one service stage: what arbitration leaves in the table, and how the sequencer follows the asserted stage. -/

namespace Sys2Proof.Machine

/-- All SERVING entries have the stage `c` (R139). -/
def oneStage (t : List ClaimEntry) (c : Option StageId) : Prop := ∀ e ∈ t, e.state = .serving → c = some e.stage

theorem servingStage_none {t : List ClaimEntry} (h : servingStage t = none) : ∀ e ∈ t, e.state ≠ .serving := by
  unfold servingStage at h
  rw [Option.map_eq_none_iff, List.find?_eq_none] at h
  intro e he hs
  exact h e he (by simp [hs])

theorem servingStage_some {t : List ClaimEntry} {c} (h : servingStage t = some c) : ∃ e ∈ t, e.state = .serving ∧ e.stage = c := by
  unfold servingStage at h
  rw [Option.map_eq_some_iff] at h
  obtain ⟨e, he, hc⟩ := h
  exact ⟨e, List.mem_of_find?_eq_some he, by simpa using List.find?_some he, hc⟩

theorem oneStage_serving {t : List ClaimEntry} {c} (h : oneStage t c) : oneStage t (servingStage t) := by
  intro e he hs
  cases hx : servingStage t with
  | none => exact absurd hs (servingStage_none hx e he)
  | some d =>
    obtain ⟨x, hx1, hx2, hx3⟩ := servingStage_some hx
    have a := h e he hs
    have b := h x hx1 hx2
    rw [a] at b
    rw [← hx3]; exact b.symm

theorem chooseService_oneStage (hold sv) (t : List ClaimEntry) (h : ∀ e ∈ t, e.state ≠ .serving) : ∃ c, oneStage (chooseService hold sv t) c := by
  unfold chooseService
  dsimp only
  split
  · exact ⟨none, fun e he hs => absurd hs (h e he)⟩
  · rename_i f _
    refine ⟨some f.stage, fun e he hs => ?_⟩
    obtain ⟨x, hx, rfl⟩ := List.mem_map.mp he
    split at hs
    · rename_i hc
      rw [if_pos hc]
      simp only [Bool.and_eq_true, beq_iff_eq] at hc
      show some f.stage = some x.stage
      rw [hc.2]
    · exact absurd hs (h x hx)

theorem joinService_oneStage (hold sv c) (b) (t : List ClaimEntry) (h : oneStage t (some c)) : oneStage (joinService hold sv c b t) (some c) := by
  induction t generalizing b with
  | nil => exact h
  | cons e t ih =>
    have ht : oneStage t (some c) := fun x hx hs => h x (List.mem_cons_of_mem _ hx) hs
    unfold joinService
    split
    · rename_i hc
      simp only [Bool.and_eq_true, beq_iff_eq] at hc
      intro x hx hs
      rcases List.mem_cons.mp hx with rfl | hx
      · show some c = some e.stage; rw [hc.1.2]
      · exact ih _ ht x hx hs
    · intro x hx hs
      rcases List.mem_cons.mp hx with rfl | hx
      · exact h x List.mem_cons_self hs
      · exact ih _ ht x hx hs

theorem ClaimEntry.toReady_state (e : ClaimEntry) : e.toReady.state ≠ .serving := by
  unfold ClaimEntry.toReady; split
  · nofun
  · assumption

theorem arbitrateTable_oneStage (hold sv) (t : List ClaimEntry) {c} (h : oneStage t c) : oneStage (arbitrateTable hold sv t) (servingStage (arbitrateTable hold sv t)) := by
  have h1 : oneStage (t.map fun e => if e.state == .serving && !sv e.priority then e.toReady else e) c := by
    intro x hx hs
    obtain ⟨e, he, rfl⟩ := List.mem_map.mp hx
    split at hs
    · exact absurd hs (ClaimEntry.toReady_state e)
    · rename_i hn
      rw [if_neg hn]; exact h e he hs
  have : ∃ d, oneStage (arbitrateTable hold sv t) d := by
    unfold arbitrateTable
    dsimp only
    split
    · rename_i hn
      exact chooseService_oneStage hold sv _ (servingStage_none hn)
    · rename_i d hd
      have h2 : oneStage (t.map fun e => if e.state == .serving && !sv e.priority then e.toReady else e) (some d) := by
        have := oneStage_serving h1; rw [hd] at this; exact this
      split
      · refine chooseService_oneStage hold sv _ fun e he => ?_
        obtain ⟨x, _, rfl⟩ := List.mem_map.mp he
        exact ClaimEntry.toReady_state x
      · exact ⟨some d, joinService_oneStage _ _ _ _ _ h2⟩
  obtain ⟨d, hd⟩ := this
  exact oneStage_serving hd

/-- Only entries of a served priority are SERVING (R137). -/
def onlyServed (sv : Priority → Bool) (t : List ClaimEntry) : Prop := ∀ e ∈ t, e.state = .serving → sv e.priority = true

theorem chooseService_served (hold sv) (t : List ClaimEntry) (h : onlyServed sv t) : onlyServed sv (chooseService hold sv t) := by
  unfold chooseService
  dsimp only
  split
  · exact h
  · rename_i f _
    intro e he hs
    obtain ⟨x, hx, rfl⟩ := List.mem_map.mp he
    split at hs
    · rename_i hc
      rw [if_pos hc]
      simp only [Bool.and_eq_true, beq_iff_eq, ClaimEntry.waitsService] at hc
      exact hc.1.1.2
    · rename_i hc
      rw [if_neg hc]; exact h x hx hs

theorem joinService_served (hold sv c) (b) (t : List ClaimEntry) (h : onlyServed sv t) : onlyServed sv (joinService hold sv c b t) := by
  induction t generalizing b with
  | nil => exact h
  | cons e t ih =>
    have ht : onlyServed sv t := fun x hx hs => h x (List.mem_cons_of_mem _ hx) hs
    unfold joinService
    split
    · rename_i hc
      simp only [Bool.and_eq_true, beq_iff_eq, ClaimEntry.waitsService] at hc
      intro x hx hs
      rcases List.mem_cons.mp hx with rfl | hx
      · exact hc.1.1.2
      · exact ih _ ht x hx hs
    · intro x hx hs
      rcases List.mem_cons.mp hx with rfl | hx
      · exact h x List.mem_cons_self hs
      · exact ih _ ht x hx hs

theorem arbitrateTable_served (hold sv) (t : List ClaimEntry) : onlyServed sv (arbitrateTable hold sv t) := by
  have h1 : onlyServed sv (t.map fun e => if e.state == .serving && !sv e.priority then e.toReady else e) := by
    intro x hx hs
    obtain ⟨e, he, rfl⟩ := List.mem_map.mp hx
    split at hs
    · exact absurd hs (ClaimEntry.toReady_state e)
    · rename_i hn
      rw [if_neg hn]
      cases hv : sv e.priority with
      | true => rfl
      | false => exact absurd (by simp [hs, hv]) hn
  unfold arbitrateTable
  dsimp only
  split
  · exact chooseService_served _ _ _ h1
  · split
    · refine chooseService_served _ _ _ fun e he hs => ?_
      obtain ⟨x, _, rfl⟩ := List.mem_map.mp he
      exact absurd hs (ClaimEntry.toReady_state x)
    · exact joinService_served _ _ _ _ _ h1

/-- The SERVING entries have the asserted service stage, and outside RUNNING there is none (R139, R141). -/
def State.serviceTable (s : State) : Prop :=
  (∀ e ∈ s.claims.table, e.state = .serving → s.seq.service = some e.stage) ∧
  (s.seq.service.isSome = true → ∃ e ∈ s.claims.table, e.state = .serving) ∧
  (s.ctrl.mode ≠ .running → ∀ e ∈ s.claims.table, e.state ≠ .serving)

theorem State.setService_service (s : State) (c) : (s.setService c).seq.service = c := by
  unfold State.setService
  split
  · rename_i h; exact h.symm
  · cases c with
    | none => rfl
    | some x =>
      dsimp only
      unfold State.assertService
      repeat' split
      all_goals rfl

theorem State.arbitrate_serviceTable (u : State) {c} (h : oneStage u.claims.table c) : State.serviceTable u.arbitrate := by
  have ht : u.arbitrate.claims.table = arbitrateTable u.holdTicks (served u.ctrl.mode u.manualFlag) u.claims.table := by
    rw [State.arbitrate_table]
  have hs : u.arbitrate.seq.service = servingStage u.arbitrate.claims.table := by
    rw [ht]; exact State.setService_service _ _
  unfold State.serviceTable
  rw [hs, ht, State.arbitrate_ctrl]
  refine ⟨arbitrateTable_oneStage _ _ _ h, fun hx => ?_, fun hm e he hs => ?_⟩
  · cases hv : servingStage (arbitrateTable u.holdTicks (served u.ctrl.mode u.manualFlag) u.claims.table) with
    | none => rw [hv] at hx; cases hx
    | some d => obtain ⟨e, he, h2, _⟩ := servingStage_some hv; exact ⟨e, he, h2⟩
  · have := arbitrateTable_served _ _ _ e he hs
    unfold served at this
    split at this
    · rename_i h1 _; exact hm h1
    · rename_i h1 _; exact hm h1
    · cases this

/-- Outside RUNNING no claim is served, and arbitration leaves the groups (R137, R141). -/
theorem State.arbitrate_groups {u : State} (hm : u.ctrl.mode ≠ .running) : u.arbitrate.groups = u.groups := by
  have hn : servingStage (arbitrateTable u.holdTicks (served u.ctrl.mode u.manualFlag) u.claims.table) = none := by
    cases hv : servingStage (arbitrateTable u.holdTicks (served u.ctrl.mode u.manualFlag) u.claims.table) with
    | none => rfl
    | some d =>
      obtain ⟨e, he, hs, _⟩ := servingStage_some hv
      have := arbitrateTable_served _ _ _ e he hs
      unfold served at this
      split at this
      · rename_i h1 _; exact absurd h1 hm
      · rename_i h1 _; exact absurd h1 hm
      · cases this
  unfold State.arbitrate
  dsimp only
  rw [hn]
  unfold State.setService
  split <;> rfl

/-- An entry to a mode other than RUNNING changes the groups by the force input alone (R169). -/
theorem State.enterMode_groups (s : State) {m : Mode} (h : m ≠ .running) :
    (s.enterMode m).groups = (s.forceChange s.ctrl.mode m).groups := by
  have hf : ∀ (t : State) (a b : Mode), (t.forceChange a b).ctrl = t.ctrl := by
    intro t a b; unfold State.forceChange; split <;> rfl
  have hq : ∀ (t : State) (a : Mode), (t.seqModeChange a m).ctrl = t.ctrl ∧ (t.seqModeChange a m).groups = t.groups := by
    intro t a
    unfold State.seqModeChange
    rw [if_neg h]
    split <;> exact ⟨rfl, rfl⟩
  have hc : ∀ t : State, (if m = .check then t.selfCheckStart else t).ctrl = t.ctrl ∧
      (if m = .check then t.selfCheckStart else t).groups = t.groups := by
    intro t; split <;> exact ⟨rfl, rfl⟩
  refine (State.arbitrate_groups ?_).trans (((hc _).2.trans (hq _ _).2).trans ?_)
  · rw [(hc _).1, (hq _ _).1, hf]; exact h
  · unfold State.forceChange; split <;> rfl

theorem oneStage_within {t u : List ClaimEntry} {c} (h : oneStage t c) (k : servesWithin t u) : oneStage u c := by
  intro e he hs
  obtain ⟨x, hx, h2, h3⟩ := k e he hs
  rw [← h3]; exact h x hx h2

theorem State.enterMode_arbitrates (s : State) (m : Mode) : ∃ u : State, u.claims = s.claims ∧ u.ctrl.mode = m ∧
    (s.enterMode m).claims = u.arbitrate.claims ∧ (s.enterMode m).ctrl = u.arbitrate.ctrl ∧ (s.enterMode m).seq = u.arbitrate.seq := by
  let s1 : State := { s with ctrl := { s.ctrl with mode := m, timer := m.timerStart, wait := false } }
  let s3 := (s1.forceChange s.ctrl.mode m).seqModeChange s.ctrl.mode m
  let s4 := if m = .check then s3.selfCheckStart else s3
  have h3 : s3.claims = s.claims ∧ s3.ctrl.mode = m := by
    have hf : (s1.forceChange s.ctrl.mode m).claims = s.claims ∧ (s1.forceChange s.ctrl.mode m).ctrl.mode = m := by
      unfold State.forceChange; split <;> exact ⟨rfl, rfl⟩
    show ((s1.forceChange s.ctrl.mode m).seqModeChange s.ctrl.mode m).claims = _ ∧ ((s1.forceChange s.ctrl.mode m).seqModeChange s.ctrl.mode m).ctrl.mode = _
    generalize s1.forceChange s.ctrl.mode m = v at hf
    unfold State.seqModeChange
    split
    · rw [State.startChange_ctrl]
      refine ⟨?_, hf.2⟩
      unfold State.startChange; split
      · exact hf.1
      · exact hf.1
    · split
      · exact hf
      · exact hf
  refine ⟨s4, ?_, ?_, rfl, rfl, rfl⟩
  · show (if m = .check then s3.selfCheckStart else s3).claims = _
    split
    · exact h3.1
    · exact h3.1
  · show (if m = .check then s3.selfCheckStart else s3).ctrl.mode = _
    split
    · exact h3.2
    · exact h3.2

/-- A sequencer out of IDLE has the asserted service stage as its target, and an uncommitted change no replacement (R84, R99). -/
def Seq.onService (q : Seq) : Prop :=
  (∀ c, q.service = some c → q.st = .idle ∨ q.st.target = some c) ∧
  (∀ r, q.st = .change r → r.committed = false → r.replacement = none)

theorem State.beginChange_onService (s : State) (a b : StageId) (h : ∀ c, s.seq.service = some c → b = c) : Seq.onService (s.beginChange a b).seq :=
  ⟨fun c hc => Or.inr (congrArg some (h c hc)), fun r hr _ => by cases hr; rfl⟩

theorem State.replaceChange_onService (s : State) (x : Change) (b : StageId) (h : ∀ c, s.seq.service = some c → b = c) : Seq.onService (s.replaceChange x b).seq :=
  ⟨fun c hc => Or.inr (congrArg some (h c hc)), fun r hr _ => by cases hr; rfl⟩

theorem State.assertService_onService (s : State) (c) (hs : s.seq.service = some c)
    (h2 : ∀ r, s.seq.st = .change r → r.committed = false → r.replacement = none) : Seq.onService (s.assertService c).seq := by
  have hc : ∀ d, s.seq.service = some d → c = d := fun d hd => by rw [hs] at hd; exact Option.some.inj hd
  unfold State.assertService
  split
  · rename_i hi; exact ⟨fun _ _ => Or.inl hi, h2⟩
  · rename_i t ht
    split
    · rename_i e; subst e
      exact ⟨fun d hd => Or.inr (by rw [ht]; exact congrArg some (hc d hd)), h2⟩
    · exact State.beginChange_onService s _ _ hc
  · rename_i r hr
    split
    · rename_i hcm
      refine ⟨fun d hd => Or.inr ?_, fun x hx hn => ?_⟩
      · have hd2 := hc d hd
        show some ((if r.toStage = c then none else some c).getD r.toStage) = some d
        split
        · rename_i e; rw [← hd2, ← e]; rfl
        · rw [← hd2]; rfl
      · cases hx
        have hcm2 : r.committed = false := hn
        rw [hcm] at hcm2; cases hcm2
    · rename_i hcm
      split
      · rename_i e
        refine ⟨fun d hd => Or.inr ?_, h2⟩
        have := h2 r hr (by simpa using hcm)
        rw [hr]
        show some (r.replacement.getD r.toStage) = _
        rw [this, ← hc d hd, ← e]; rfl
      · exact State.replaceChange_onService s _ _ hc

theorem State.setService_onService (s : State) (c) (h : Seq.onService s.seq) : Seq.onService (s.setService c).seq := by
  unfold State.setService
  split
  · exact h
  · cases c with
    | none =>
      refine ⟨nofun, fun r hr hn => ?_⟩
      have hr2 : (match s.seq.st with
        | .idle => SeqState.idle
        | .dwell t => .dwell t
        | .change r => .change { r with replacement := none }) = .change r := hr
      split at hr2
      · cases hr2
      · cases hr2
      · cases hr2; rfl
    | some x => exact State.assertService_onService { s with seq := { s.seq with service := some x } } x rfl h.2

theorem State.seqStep_onService (s t : State) (e : s.seqStep = some t) (h : Seq.onService s.seq) : Seq.onService t.seq := by
  unfold State.seqStep at e
  split at e
  · cases e
  · rename_i c hc
    split at e
    · rename_i hcm
      cases e
      simp only [Bool.and_eq_true, Bool.not_eq_true'] at hcm
      refine ⟨fun d hd => ?_, fun r hr hn => by cases hr; cases hn⟩
      rcases h.1 d hd with hi | hi
      · rw [hc] at hi; cases hi
      · right
        rw [hc] at hi; exact hi
    · split at e
      · cases e
        unfold State.completeChange
        dsimp only
        have hh : ∀ d, s.seq.service = some d → c.replacement.getD c.toStage = d := fun d hd => by
          rcases h.1 d hd with hi | hi
          · rw [hc] at hi; cases hi
          · rw [hc] at hi; exact Option.some.inj hi
        cases hr : c.replacement with
        | none =>
          refine ⟨fun d hd => Or.inr ?_, nofun⟩
          have := hh d hd; rw [hr] at this
          exact congrArg some this
        | some u =>
          dsimp only
          split
          · rename_i e
            refine ⟨fun d hd => Or.inr ?_, nofun⟩
            have := hh d hd; rw [hr] at this
            exact congrArg some (e.symm.trans this)
          · refine State.beginChange_onService _ _ _ fun d hd => ?_
            have := hh d hd; rw [hr] at this
            exact this
      · cases e
  · rename_i d hd
    split at e
    · rename_i hm
      cases hu : s.selectTarget d with
      | none => simp [hu] at e
      | some u =>
        rw [hu] at e; cases e
        refine State.beginChange_onService _ _ _ fun x hx => ?_
        exfalso
        rcases h.1 x hx with hi | hi
        · rw [hd] at hi; cases hi
        · rw [hd] at hi
          have : d = x := Option.some.inj hi
          unfold State.mayEnd State.holding at hm
          rw [hx, this] at hm
          simp at hm
    · cases e

theorem State.advance_onService (s : State) (h : Seq.onService s.seq) : Seq.onService s.advance.seq := by
  unfold State.advance
  split
  · rename_i hc
    simp only [Bool.and_eq_true, beq_iff_eq] at hc
    have hn : ∀ b d, s.seq.service = some d → b = d := fun b d hd => by rw [hc.1.2] at hd; cases hd
    repeat' split
    · exact h
    · exact h
    · exact State.beginChange_onService s _ _ (hn _)
    · exact h
    · exact h
    · exact h
    · exact State.replaceChange_onService s _ _ (hn _)
    · exact h
  · exact h

theorem State.startChange_onService (s : State) (h : s.mainStage = none → Seq.onService s.seq) : Seq.onService s.startChange.seq := by
  unfold State.startChange
  split
  · rename_i hm; exact h hm
  · rename_i m _
    refine ⟨fun d hd => Or.inr ?_, fun r hr hn => by cases hr; cases hn⟩
    have hd2 : s.seq.service = some d := hd
    show some ((if s.seq.service = some m then none else s.seq.service).getD m) = some d
    split
    · rename_i e; rw [hd2] at e; rw [Option.some.inj e]; rfl
    · rw [hd2]; rfl

theorem State.enterMode_onService (s : State) (m : Mode) (h : Seq.onService s.seq) : Seq.onService (s.enterMode m).seq := by
  let s1 : State := { s with ctrl := { s.ctrl with mode := m, timer := m.timerStart, wait := false } }
  let s3 := (s1.forceChange s.ctrl.mode m).seqModeChange s.ctrl.mode m
  have h3 : Seq.onService s3.seq := by
    have hf : Seq.onService (s1.forceChange s.ctrl.mode m).seq := by unfold State.forceChange; split <;> exact h
    show Seq.onService ((s1.forceChange s.ctrl.mode m).seqModeChange s.ctrl.mode m).seq
    unfold State.seqModeChange
    split
    · exact State.startChange_onService _ (fun _ => hf)
    · split
      · exact ⟨fun _ _ => Or.inl rfl, nofun⟩
      · exact hf
  let s4 := if m = .check then s3.selfCheckStart else s3
  have h4 : Seq.onService s4.seq := by
    show Seq.onService (if m = .check then s3.selfCheckStart else s3).seq
    split
    · exact h3
    · exact h3
  show Seq.onService s4.arbitrate.seq
  exact State.setService_onService _ _ h4

end Sys2Proof.Machine
end

