-- ==== Sys2Proof/Laws/State.lean ====
section
/-! SUPPORT. Laws/State.lean: what each named update of the state does to each field. -/

namespace Sys2Proof.Machine

/-! ### updGroup -/

@[simp] theorem State.updGroup_pending (s : State) (g : GroupId) (f : Group → Group) : (s.updGroup g f).pending = s.pending := rfl
@[simp] theorem State.updGroup_freeCount (s : State) (g : GroupId) (f : Group → Group) : (s.updGroup g f).freeCount = s.freeCount := rfl
@[simp] theorem State.updGroup_supplyOk (s : State) (g : GroupId) (f : Group → Group) : (s.updGroup g f).supplyOk = s.supplyOk := rfl
@[simp] theorem State.updGroup_resetPin (s : State) (g : GroupId) (f : Group → Group) : (s.updGroup g f).resetPin = s.resetPin := rfl
@[simp] theorem State.updGroup_panel (s : State) (g : GroupId) (f : Group → Group) : (s.updGroup g f).panel = s.panel := rfl
@[simp] theorem State.updGroup_planRead (s : State) (g : GroupId) (f : Group → Group) : (s.updGroup g f).planRead = s.planRead := rfl
@[simp] theorem State.updGroup_plan (s : State) (g : GroupId) (f : Group → Group) : (s.updGroup g f).plan = s.plan := rfl
@[simp] theorem State.updGroup_ctrl (s : State) (g : GroupId) (f : Group → Group) : (s.updGroup g f).ctrl = s.ctrl := rfl
@[simp] theorem State.updGroup_line (s : State) (g : GroupId) (f : Group → Group) : (s.updGroup g f).line = s.line := rfl
@[simp] theorem State.updGroup_peers (s : State) (g : GroupId) (f : Group → Group) : (s.updGroup g f).peers = s.peers := rfl
@[simp] theorem State.updGroup_latched (s : State) (g : GroupId) (f : Group → Group) : (s.updGroup g f).latched = s.latched := rfl
@[simp] theorem State.updGroup_act (s : State) (g : GroupId) (f : Group → Group) : (s.updGroup g f).act = s.act := rfl
@[simp] theorem State.updGroup_cycle (s : State) (g : GroupId) (f : Group → Group) : (s.updGroup g f).cycle = s.cycle := rfl
@[simp] theorem State.updGroup_groups (s : State) (g : GroupId) (f : Group → Group) : (s.updGroup g f).groups = s.groups.upd g f := rfl
@[simp] theorem State.updGroup_seq (s : State) (g : GroupId) (f : Group → Group) : (s.updGroup g f).seq = s.seq := rfl
@[simp] theorem State.updGroup_dets (s : State) (g : GroupId) (f : Group → Group) : (s.updGroup g f).dets = s.dets := rfl
@[simp] theorem State.updGroup_remotes (s : State) (g : GroupId) (f : Group → Group) : (s.updGroup g f).remotes = s.remotes := rfl
@[simp] theorem State.updGroup_callers (s : State) (g : GroupId) (f : Group → Group) : (s.updGroup g f).callers = s.callers := rfl
@[simp] theorem State.updGroup_claims (s : State) (g : GroupId) (f : Group → Group) : (s.updGroup g f).claims = s.claims := rfl
@[simp] theorem State.updGroup_lamps (s : State) (g : GroupId) (f : Group → Group) : (s.updGroup g f).lamps = s.lamps := rfl
@[simp] theorem State.updGroup_diag (s : State) (g : GroupId) (f : Group → Group) : (s.updGroup g f).diag = s.diag := rfl

/-! ### updDet -/

@[simp] theorem State.updDet_pending (s : State) (d : LocalId) (f : Det → Det) : (s.updDet d f).pending = s.pending := rfl
@[simp] theorem State.updDet_freeCount (s : State) (d : LocalId) (f : Det → Det) : (s.updDet d f).freeCount = s.freeCount := rfl
@[simp] theorem State.updDet_supplyOk (s : State) (d : LocalId) (f : Det → Det) : (s.updDet d f).supplyOk = s.supplyOk := rfl
@[simp] theorem State.updDet_resetPin (s : State) (d : LocalId) (f : Det → Det) : (s.updDet d f).resetPin = s.resetPin := rfl
@[simp] theorem State.updDet_panel (s : State) (d : LocalId) (f : Det → Det) : (s.updDet d f).panel = s.panel := rfl
@[simp] theorem State.updDet_planRead (s : State) (d : LocalId) (f : Det → Det) : (s.updDet d f).planRead = s.planRead := rfl
@[simp] theorem State.updDet_plan (s : State) (d : LocalId) (f : Det → Det) : (s.updDet d f).plan = s.plan := rfl
@[simp] theorem State.updDet_ctrl (s : State) (d : LocalId) (f : Det → Det) : (s.updDet d f).ctrl = s.ctrl := rfl
@[simp] theorem State.updDet_line (s : State) (d : LocalId) (f : Det → Det) : (s.updDet d f).line = s.line := rfl
@[simp] theorem State.updDet_peers (s : State) (d : LocalId) (f : Det → Det) : (s.updDet d f).peers = s.peers := rfl
@[simp] theorem State.updDet_latched (s : State) (d : LocalId) (f : Det → Det) : (s.updDet d f).latched = s.latched := rfl
@[simp] theorem State.updDet_act (s : State) (d : LocalId) (f : Det → Det) : (s.updDet d f).act = s.act := rfl
@[simp] theorem State.updDet_cycle (s : State) (d : LocalId) (f : Det → Det) : (s.updDet d f).cycle = s.cycle := rfl
@[simp] theorem State.updDet_groups (s : State) (d : LocalId) (f : Det → Det) : (s.updDet d f).groups = s.groups := rfl
@[simp] theorem State.updDet_seq (s : State) (d : LocalId) (f : Det → Det) : (s.updDet d f).seq = s.seq := rfl
@[simp] theorem State.updDet_dets (s : State) (d : LocalId) (f : Det → Det) : (s.updDet d f).dets = s.dets.upd d f := rfl
@[simp] theorem State.updDet_remotes (s : State) (d : LocalId) (f : Det → Det) : (s.updDet d f).remotes = s.remotes := rfl
@[simp] theorem State.updDet_callers (s : State) (d : LocalId) (f : Det → Det) : (s.updDet d f).callers = s.callers := rfl
@[simp] theorem State.updDet_claims (s : State) (d : LocalId) (f : Det → Det) : (s.updDet d f).claims = s.claims := rfl
@[simp] theorem State.updDet_lamps (s : State) (d : LocalId) (f : Det → Det) : (s.updDet d f).lamps = s.lamps := rfl
@[simp] theorem State.updDet_diag (s : State) (d : LocalId) (f : Det → Det) : (s.updDet d f).diag = s.diag := rfl

/-! ### updChan -/

@[simp] theorem State.updChan_pending (s : State) (c : ChanId) (f : Chan → Chan) : (s.updChan c f).pending = s.pending := rfl
@[simp] theorem State.updChan_freeCount (s : State) (c : ChanId) (f : Chan → Chan) : (s.updChan c f).freeCount = s.freeCount := rfl
@[simp] theorem State.updChan_supplyOk (s : State) (c : ChanId) (f : Chan → Chan) : (s.updChan c f).supplyOk = s.supplyOk := rfl
@[simp] theorem State.updChan_resetPin (s : State) (c : ChanId) (f : Chan → Chan) : (s.updChan c f).resetPin = s.resetPin := rfl
@[simp] theorem State.updChan_panel (s : State) (c : ChanId) (f : Chan → Chan) : (s.updChan c f).panel = s.panel := rfl
@[simp] theorem State.updChan_planRead (s : State) (c : ChanId) (f : Chan → Chan) : (s.updChan c f).planRead = s.planRead := rfl
@[simp] theorem State.updChan_plan (s : State) (c : ChanId) (f : Chan → Chan) : (s.updChan c f).plan = s.plan := rfl
@[simp] theorem State.updChan_ctrl (s : State) (c : ChanId) (f : Chan → Chan) : (s.updChan c f).ctrl = s.ctrl := rfl
@[simp] theorem State.updChan_line (s : State) (c : ChanId) (f : Chan → Chan) : (s.updChan c f).line = s.line := rfl
@[simp] theorem State.updChan_peers (s : State) (c : ChanId) (f : Chan → Chan) : (s.updChan c f).peers = s.peers := rfl
@[simp] theorem State.updChan_latched (s : State) (c : ChanId) (f : Chan → Chan) : (s.updChan c f).latched = s.latched := rfl
@[simp] theorem State.updChan_act (s : State) (c : ChanId) (f : Chan → Chan) : (s.updChan c f).act = s.act := rfl
@[simp] theorem State.updChan_cycle (s : State) (c : ChanId) (f : Chan → Chan) : (s.updChan c f).cycle = s.cycle := rfl
@[simp] theorem State.updChan_groups (s : State) (c : ChanId) (f : Chan → Chan) : (s.updChan c f).groups = s.groups := rfl
@[simp] theorem State.updChan_seq (s : State) (c : ChanId) (f : Chan → Chan) : (s.updChan c f).seq = s.seq := rfl
@[simp] theorem State.updChan_dets (s : State) (c : ChanId) (f : Chan → Chan) : (s.updChan c f).dets = s.dets := rfl
@[simp] theorem State.updChan_remotes (s : State) (c : ChanId) (f : Chan → Chan) : (s.updChan c f).remotes = s.remotes := rfl
@[simp] theorem State.updChan_callers (s : State) (c : ChanId) (f : Chan → Chan) : (s.updChan c f).callers = s.callers := rfl
@[simp] theorem State.updChan_claims (s : State) (c : ChanId) (f : Chan → Chan) : (s.updChan c f).claims = s.claims := rfl
@[simp] theorem State.updChan_lamps (s : State) (c : ChanId) (f : Chan → Chan) : (s.updChan c f).lamps = { s.lamps with channels := s.lamps.channels.upd c f } := rfl
@[simp] theorem State.updChan_diag (s : State) (c : ChanId) (f : Chan → Chan) : (s.updChan c f).diag = s.diag := rfl

/-! ### updPeer -/

@[simp] theorem State.updPeer_pending (s : State) (k : StationId) (f : Peer → Peer) : (s.updPeer k f).pending = s.pending := rfl
@[simp] theorem State.updPeer_freeCount (s : State) (k : StationId) (f : Peer → Peer) : (s.updPeer k f).freeCount = s.freeCount := rfl
@[simp] theorem State.updPeer_supplyOk (s : State) (k : StationId) (f : Peer → Peer) : (s.updPeer k f).supplyOk = s.supplyOk := rfl
@[simp] theorem State.updPeer_resetPin (s : State) (k : StationId) (f : Peer → Peer) : (s.updPeer k f).resetPin = s.resetPin := rfl
@[simp] theorem State.updPeer_panel (s : State) (k : StationId) (f : Peer → Peer) : (s.updPeer k f).panel = s.panel := rfl
@[simp] theorem State.updPeer_planRead (s : State) (k : StationId) (f : Peer → Peer) : (s.updPeer k f).planRead = s.planRead := rfl
@[simp] theorem State.updPeer_plan (s : State) (k : StationId) (f : Peer → Peer) : (s.updPeer k f).plan = s.plan := rfl
@[simp] theorem State.updPeer_ctrl (s : State) (k : StationId) (f : Peer → Peer) : (s.updPeer k f).ctrl = s.ctrl := rfl
@[simp] theorem State.updPeer_line (s : State) (k : StationId) (f : Peer → Peer) : (s.updPeer k f).line = s.line := rfl
@[simp] theorem State.updPeer_peers (s : State) (k : StationId) (f : Peer → Peer) : (s.updPeer k f).peers = s.peers.upd k f := rfl
@[simp] theorem State.updPeer_latched (s : State) (k : StationId) (f : Peer → Peer) : (s.updPeer k f).latched = s.latched := rfl
@[simp] theorem State.updPeer_act (s : State) (k : StationId) (f : Peer → Peer) : (s.updPeer k f).act = s.act := rfl
@[simp] theorem State.updPeer_cycle (s : State) (k : StationId) (f : Peer → Peer) : (s.updPeer k f).cycle = s.cycle := rfl
@[simp] theorem State.updPeer_groups (s : State) (k : StationId) (f : Peer → Peer) : (s.updPeer k f).groups = s.groups := rfl
@[simp] theorem State.updPeer_seq (s : State) (k : StationId) (f : Peer → Peer) : (s.updPeer k f).seq = s.seq := rfl
@[simp] theorem State.updPeer_dets (s : State) (k : StationId) (f : Peer → Peer) : (s.updPeer k f).dets = s.dets := rfl
@[simp] theorem State.updPeer_remotes (s : State) (k : StationId) (f : Peer → Peer) : (s.updPeer k f).remotes = s.remotes := rfl
@[simp] theorem State.updPeer_callers (s : State) (k : StationId) (f : Peer → Peer) : (s.updPeer k f).callers = s.callers := rfl
@[simp] theorem State.updPeer_claims (s : State) (k : StationId) (f : Peer → Peer) : (s.updPeer k f).claims = s.claims := rfl
@[simp] theorem State.updPeer_lamps (s : State) (k : StationId) (f : Peer → Peer) : (s.updPeer k f).lamps = s.lamps := rfl
@[simp] theorem State.updPeer_diag (s : State) (k : StationId) (f : Peer → Peer) : (s.updPeer k f).diag = s.diag := rfl

/-! ### withSeq -/

@[simp] theorem State.withSeq_pending (s : State) (st : SeqState) : (s.withSeq st).pending = s.pending := rfl
@[simp] theorem State.withSeq_freeCount (s : State) (st : SeqState) : (s.withSeq st).freeCount = s.freeCount := rfl
@[simp] theorem State.withSeq_supplyOk (s : State) (st : SeqState) : (s.withSeq st).supplyOk = s.supplyOk := rfl
@[simp] theorem State.withSeq_resetPin (s : State) (st : SeqState) : (s.withSeq st).resetPin = s.resetPin := rfl
@[simp] theorem State.withSeq_panel (s : State) (st : SeqState) : (s.withSeq st).panel = s.panel := rfl
@[simp] theorem State.withSeq_planRead (s : State) (st : SeqState) : (s.withSeq st).planRead = s.planRead := rfl
@[simp] theorem State.withSeq_plan (s : State) (st : SeqState) : (s.withSeq st).plan = s.plan := rfl
@[simp] theorem State.withSeq_ctrl (s : State) (st : SeqState) : (s.withSeq st).ctrl = s.ctrl := rfl
@[simp] theorem State.withSeq_line (s : State) (st : SeqState) : (s.withSeq st).line = s.line := rfl
@[simp] theorem State.withSeq_peers (s : State) (st : SeqState) : (s.withSeq st).peers = s.peers := rfl
@[simp] theorem State.withSeq_latched (s : State) (st : SeqState) : (s.withSeq st).latched = s.latched := rfl
@[simp] theorem State.withSeq_act (s : State) (st : SeqState) : (s.withSeq st).act = s.act := rfl
@[simp] theorem State.withSeq_cycle (s : State) (st : SeqState) : (s.withSeq st).cycle = s.cycle := rfl
@[simp] theorem State.withSeq_groups (s : State) (st : SeqState) : (s.withSeq st).groups = s.groups := rfl
@[simp] theorem State.withSeq_seq (s : State) (st : SeqState) : (s.withSeq st).seq = { s.seq with st := st } := rfl
@[simp] theorem State.withSeq_dets (s : State) (st : SeqState) : (s.withSeq st).dets = s.dets := rfl
@[simp] theorem State.withSeq_remotes (s : State) (st : SeqState) : (s.withSeq st).remotes = s.remotes := rfl
@[simp] theorem State.withSeq_callers (s : State) (st : SeqState) : (s.withSeq st).callers = s.callers := rfl
@[simp] theorem State.withSeq_claims (s : State) (st : SeqState) : (s.withSeq st).claims = s.claims := rfl
@[simp] theorem State.withSeq_lamps (s : State) (st : SeqState) : (s.withSeq st).lamps = s.lamps := rfl
@[simp] theorem State.withSeq_diag (s : State) (st : SeqState) : (s.withSeq st).diag = s.diag := rfl

/-! ### withClaimTable -/

@[simp] theorem State.withClaimTable_pending (s : State) (t : List ClaimEntry) : (s.withClaimTable t).pending = s.pending := rfl
@[simp] theorem State.withClaimTable_freeCount (s : State) (t : List ClaimEntry) : (s.withClaimTable t).freeCount = s.freeCount := rfl
@[simp] theorem State.withClaimTable_supplyOk (s : State) (t : List ClaimEntry) : (s.withClaimTable t).supplyOk = s.supplyOk := rfl
@[simp] theorem State.withClaimTable_resetPin (s : State) (t : List ClaimEntry) : (s.withClaimTable t).resetPin = s.resetPin := rfl
@[simp] theorem State.withClaimTable_panel (s : State) (t : List ClaimEntry) : (s.withClaimTable t).panel = s.panel := rfl
@[simp] theorem State.withClaimTable_planRead (s : State) (t : List ClaimEntry) : (s.withClaimTable t).planRead = s.planRead := rfl
@[simp] theorem State.withClaimTable_plan (s : State) (t : List ClaimEntry) : (s.withClaimTable t).plan = s.plan := rfl
@[simp] theorem State.withClaimTable_ctrl (s : State) (t : List ClaimEntry) : (s.withClaimTable t).ctrl = s.ctrl := rfl
@[simp] theorem State.withClaimTable_line (s : State) (t : List ClaimEntry) : (s.withClaimTable t).line = s.line := rfl
@[simp] theorem State.withClaimTable_peers (s : State) (t : List ClaimEntry) : (s.withClaimTable t).peers = s.peers := rfl
@[simp] theorem State.withClaimTable_latched (s : State) (t : List ClaimEntry) : (s.withClaimTable t).latched = s.latched := rfl
@[simp] theorem State.withClaimTable_act (s : State) (t : List ClaimEntry) : (s.withClaimTable t).act = s.act := rfl
@[simp] theorem State.withClaimTable_cycle (s : State) (t : List ClaimEntry) : (s.withClaimTable t).cycle = s.cycle := rfl
@[simp] theorem State.withClaimTable_groups (s : State) (t : List ClaimEntry) : (s.withClaimTable t).groups = s.groups := rfl
@[simp] theorem State.withClaimTable_seq (s : State) (t : List ClaimEntry) : (s.withClaimTable t).seq = s.seq := rfl
@[simp] theorem State.withClaimTable_dets (s : State) (t : List ClaimEntry) : (s.withClaimTable t).dets = s.dets := rfl
@[simp] theorem State.withClaimTable_remotes (s : State) (t : List ClaimEntry) : (s.withClaimTable t).remotes = s.remotes := rfl
@[simp] theorem State.withClaimTable_callers (s : State) (t : List ClaimEntry) : (s.withClaimTable t).callers = s.callers := rfl
@[simp] theorem State.withClaimTable_claims (s : State) (t : List ClaimEntry) : (s.withClaimTable t).claims = { s.claims with table := t } := rfl
@[simp] theorem State.withClaimTable_lamps (s : State) (t : List ClaimEntry) : (s.withClaimTable t).lamps = s.lamps := rfl
@[simp] theorem State.withClaimTable_diag (s : State) (t : List ClaimEntry) : (s.withClaimTable t).diag = s.diag := rfl

/-! ### draw -/

@[simp] theorem State.draw_pending (s : State) (n : Nat) : ((s.draw n).2).pending = s.pending := rfl
@[simp] theorem State.draw_freeCount (s : State) (n : Nat) : ((s.draw n).2).freeCount = s.freeCount + 1 := rfl
@[simp] theorem State.draw_supplyOk (s : State) (n : Nat) : ((s.draw n).2).supplyOk = s.supplyOk := rfl
@[simp] theorem State.draw_resetPin (s : State) (n : Nat) : ((s.draw n).2).resetPin = s.resetPin := rfl
@[simp] theorem State.draw_panel (s : State) (n : Nat) : ((s.draw n).2).panel = s.panel := rfl
@[simp] theorem State.draw_planRead (s : State) (n : Nat) : ((s.draw n).2).planRead = s.planRead := rfl
@[simp] theorem State.draw_plan (s : State) (n : Nat) : ((s.draw n).2).plan = s.plan := rfl
@[simp] theorem State.draw_ctrl (s : State) (n : Nat) : ((s.draw n).2).ctrl = s.ctrl := rfl
@[simp] theorem State.draw_line (s : State) (n : Nat) : ((s.draw n).2).line = s.line := rfl
@[simp] theorem State.draw_peers (s : State) (n : Nat) : ((s.draw n).2).peers = s.peers := rfl
@[simp] theorem State.draw_latched (s : State) (n : Nat) : ((s.draw n).2).latched = s.latched := rfl
@[simp] theorem State.draw_act (s : State) (n : Nat) : ((s.draw n).2).act = s.act := rfl
@[simp] theorem State.draw_cycle (s : State) (n : Nat) : ((s.draw n).2).cycle = s.cycle := rfl
@[simp] theorem State.draw_groups (s : State) (n : Nat) : ((s.draw n).2).groups = s.groups := rfl
@[simp] theorem State.draw_seq (s : State) (n : Nat) : ((s.draw n).2).seq = s.seq := rfl
@[simp] theorem State.draw_dets (s : State) (n : Nat) : ((s.draw n).2).dets = s.dets := rfl
@[simp] theorem State.draw_remotes (s : State) (n : Nat) : ((s.draw n).2).remotes = s.remotes := rfl
@[simp] theorem State.draw_callers (s : State) (n : Nat) : ((s.draw n).2).callers = s.callers := rfl
@[simp] theorem State.draw_claims (s : State) (n : Nat) : ((s.draw n).2).claims = s.claims := rfl
@[simp] theorem State.draw_lamps (s : State) (n : Nat) : ((s.draw n).2).lamps = s.lamps := rfl
@[simp] theorem State.draw_diag (s : State) (n : Nat) : ((s.draw n).2).diag = s.diag := rfl

/-! ### lampSync -/

@[simp] theorem State.lampSync_pending (s : State) : (s.lampSync).pending = s.pending := rfl
@[simp] theorem State.lampSync_freeCount (s : State) : (s.lampSync).freeCount = s.freeCount := rfl
@[simp] theorem State.lampSync_supplyOk (s : State) : (s.lampSync).supplyOk = s.supplyOk := rfl
@[simp] theorem State.lampSync_resetPin (s : State) : (s.lampSync).resetPin = s.resetPin := rfl
@[simp] theorem State.lampSync_panel (s : State) : (s.lampSync).panel = s.panel := rfl
@[simp] theorem State.lampSync_planRead (s : State) : (s.lampSync).planRead = s.planRead := rfl
@[simp] theorem State.lampSync_plan (s : State) : (s.lampSync).plan = s.plan := rfl
@[simp] theorem State.lampSync_ctrl (s : State) : (s.lampSync).ctrl = s.ctrl := rfl
@[simp] theorem State.lampSync_line (s : State) : (s.lampSync).line = s.line := rfl
@[simp] theorem State.lampSync_peers (s : State) : (s.lampSync).peers = s.peers := rfl
@[simp] theorem State.lampSync_latched (s : State) : (s.lampSync).latched = s.latched := rfl
@[simp] theorem State.lampSync_act (s : State) : (s.lampSync).act = s.act := rfl
@[simp] theorem State.lampSync_cycle (s : State) : (s.lampSync).cycle = s.cycle := rfl
@[simp] theorem State.lampSync_groups (s : State) : (s.lampSync).groups = s.groups := rfl
@[simp] theorem State.lampSync_seq (s : State) : (s.lampSync).seq = s.seq := rfl
@[simp] theorem State.lampSync_dets (s : State) : (s.lampSync).dets = s.dets := rfl
@[simp] theorem State.lampSync_remotes (s : State) : (s.lampSync).remotes = s.remotes := rfl
@[simp] theorem State.lampSync_callers (s : State) : (s.lampSync).callers = s.callers := rfl
@[simp] theorem State.lampSync_claims (s : State) : (s.lampSync).claims = s.claims := rfl
@[simp] theorem State.lampSync_diag (s : State) : (s.lampSync).diag = s.diag := rfl

/-! ### forceAll -/

@[simp] theorem State.forceAll_pending (s : State) (f : Force) : (s.forceAll f).pending = s.pending := rfl
@[simp] theorem State.forceAll_freeCount (s : State) (f : Force) : (s.forceAll f).freeCount = s.freeCount := rfl
@[simp] theorem State.forceAll_supplyOk (s : State) (f : Force) : (s.forceAll f).supplyOk = s.supplyOk := rfl
@[simp] theorem State.forceAll_resetPin (s : State) (f : Force) : (s.forceAll f).resetPin = s.resetPin := rfl
@[simp] theorem State.forceAll_panel (s : State) (f : Force) : (s.forceAll f).panel = s.panel := rfl
@[simp] theorem State.forceAll_planRead (s : State) (f : Force) : (s.forceAll f).planRead = s.planRead := rfl
@[simp] theorem State.forceAll_plan (s : State) (f : Force) : (s.forceAll f).plan = s.plan := rfl
@[simp] theorem State.forceAll_ctrl (s : State) (f : Force) : (s.forceAll f).ctrl = s.ctrl := rfl
@[simp] theorem State.forceAll_line (s : State) (f : Force) : (s.forceAll f).line = s.line := rfl
@[simp] theorem State.forceAll_peers (s : State) (f : Force) : (s.forceAll f).peers = s.peers := rfl
@[simp] theorem State.forceAll_latched (s : State) (f : Force) : (s.forceAll f).latched = s.latched := rfl
@[simp] theorem State.forceAll_act (s : State) (f : Force) : (s.forceAll f).act = s.act := rfl
@[simp] theorem State.forceAll_cycle (s : State) (f : Force) : (s.forceAll f).cycle = s.cycle := rfl
@[simp] theorem State.forceAll_seq (s : State) (f : Force) : (s.forceAll f).seq = s.seq := rfl
@[simp] theorem State.forceAll_dets (s : State) (f : Force) : (s.forceAll f).dets = s.dets := rfl
@[simp] theorem State.forceAll_remotes (s : State) (f : Force) : (s.forceAll f).remotes = s.remotes := rfl
@[simp] theorem State.forceAll_callers (s : State) (f : Force) : (s.forceAll f).callers = s.callers := rfl
@[simp] theorem State.forceAll_claims (s : State) (f : Force) : (s.forceAll f).claims = s.claims := rfl
@[simp] theorem State.forceAll_lamps (s : State) (f : Force) : (s.forceAll f).lamps = s.lamps := rfl
@[simp] theorem State.forceAll_diag (s : State) (f : Force) : (s.forceAll f).diag = s.diag := rfl

/-! ### judgeTimers -/

@[simp] theorem State.judgeTimers_pending (s : State) : (s.judgeTimers).pending = s.pending := rfl
@[simp] theorem State.judgeTimers_freeCount (s : State) : (s.judgeTimers).freeCount = s.freeCount := rfl
@[simp] theorem State.judgeTimers_supplyOk (s : State) : (s.judgeTimers).supplyOk = s.supplyOk := rfl
@[simp] theorem State.judgeTimers_resetPin (s : State) : (s.judgeTimers).resetPin = s.resetPin := rfl
@[simp] theorem State.judgeTimers_panel (s : State) : (s.judgeTimers).panel = s.panel := rfl
@[simp] theorem State.judgeTimers_planRead (s : State) : (s.judgeTimers).planRead = s.planRead := rfl
@[simp] theorem State.judgeTimers_plan (s : State) : (s.judgeTimers).plan = s.plan := rfl
@[simp] theorem State.judgeTimers_ctrl (s : State) : (s.judgeTimers).ctrl = s.ctrl := rfl
@[simp] theorem State.judgeTimers_line (s : State) : (s.judgeTimers).line = s.line := rfl
@[simp] theorem State.judgeTimers_peers (s : State) : (s.judgeTimers).peers = s.peers := rfl
@[simp] theorem State.judgeTimers_latched (s : State) : (s.judgeTimers).latched = s.latched := rfl
@[simp] theorem State.judgeTimers_act (s : State) : (s.judgeTimers).act = s.act := rfl
@[simp] theorem State.judgeTimers_cycle (s : State) : (s.judgeTimers).cycle = s.cycle := rfl
@[simp] theorem State.judgeTimers_seq (s : State) : (s.judgeTimers).seq = s.seq := rfl
@[simp] theorem State.judgeTimers_dets (s : State) : (s.judgeTimers).dets = s.dets := rfl
@[simp] theorem State.judgeTimers_remotes (s : State) : (s.judgeTimers).remotes = s.remotes := rfl
@[simp] theorem State.judgeTimers_callers (s : State) : (s.judgeTimers).callers = s.callers := rfl
@[simp] theorem State.judgeTimers_claims (s : State) : (s.judgeTimers).claims = s.claims := rfl
@[simp] theorem State.judgeTimers_lamps (s : State) : (s.judgeTimers).lamps = s.lamps := rfl
@[simp] theorem State.judgeTimers_diag (s : State) : (s.judgeTimers).diag = s.diag := rfl

/-! ### joinCallers -/

@[simp] theorem State.joinCallers_pending (s : State) : (s.joinCallers).pending = s.pending := rfl
@[simp] theorem State.joinCallers_freeCount (s : State) : (s.joinCallers).freeCount = s.freeCount := rfl
@[simp] theorem State.joinCallers_supplyOk (s : State) : (s.joinCallers).supplyOk = s.supplyOk := rfl
@[simp] theorem State.joinCallers_resetPin (s : State) : (s.joinCallers).resetPin = s.resetPin := rfl
@[simp] theorem State.joinCallers_panel (s : State) : (s.joinCallers).panel = s.panel := rfl
@[simp] theorem State.joinCallers_planRead (s : State) : (s.joinCallers).planRead = s.planRead := rfl
@[simp] theorem State.joinCallers_plan (s : State) : (s.joinCallers).plan = s.plan := rfl
@[simp] theorem State.joinCallers_ctrl (s : State) : (s.joinCallers).ctrl = s.ctrl := rfl
@[simp] theorem State.joinCallers_line (s : State) : (s.joinCallers).line = s.line := rfl
@[simp] theorem State.joinCallers_peers (s : State) : (s.joinCallers).peers = s.peers := rfl
@[simp] theorem State.joinCallers_latched (s : State) : (s.joinCallers).latched = s.latched := rfl
@[simp] theorem State.joinCallers_act (s : State) : (s.joinCallers).act = s.act := rfl
@[simp] theorem State.joinCallers_cycle (s : State) : (s.joinCallers).cycle = s.cycle := rfl
@[simp] theorem State.joinCallers_groups (s : State) : (s.joinCallers).groups = s.groups := rfl
@[simp] theorem State.joinCallers_seq (s : State) : (s.joinCallers).seq = s.seq := rfl
@[simp] theorem State.joinCallers_dets (s : State) : (s.joinCallers).dets = s.dets := rfl
@[simp] theorem State.joinCallers_remotes (s : State) : (s.joinCallers).remotes = s.remotes := rfl
@[simp] theorem State.joinCallers_claims (s : State) : (s.joinCallers).claims = s.claims := rfl
@[simp] theorem State.joinCallers_lamps (s : State) : (s.joinCallers).lamps = s.lamps := rfl
@[simp] theorem State.joinCallers_diag (s : State) : (s.joinCallers).diag = s.diag := rfl

/-! ### takeNotices -/

@[simp] theorem State.takeNotices_pending (s : State) (n : Notices) : (s.takeNotices n).pending = s.pending := rfl
@[simp] theorem State.takeNotices_freeCount (s : State) (n : Notices) : (s.takeNotices n).freeCount = s.freeCount := rfl
@[simp] theorem State.takeNotices_supplyOk (s : State) (n : Notices) : (s.takeNotices n).supplyOk = s.supplyOk := rfl
@[simp] theorem State.takeNotices_resetPin (s : State) (n : Notices) : (s.takeNotices n).resetPin = s.resetPin := rfl
@[simp] theorem State.takeNotices_panel (s : State) (n : Notices) : (s.takeNotices n).panel = s.panel := rfl
@[simp] theorem State.takeNotices_planRead (s : State) (n : Notices) : (s.takeNotices n).planRead = s.planRead := rfl
@[simp] theorem State.takeNotices_plan (s : State) (n : Notices) : (s.takeNotices n).plan = s.plan := rfl
@[simp] theorem State.takeNotices_ctrl (s : State) (n : Notices) : (s.takeNotices n).ctrl = s.ctrl := rfl
@[simp] theorem State.takeNotices_line (s : State) (n : Notices) : (s.takeNotices n).line = s.line := rfl
@[simp] theorem State.takeNotices_peers (s : State) (n : Notices) : (s.takeNotices n).peers = s.peers := rfl
@[simp] theorem State.takeNotices_latched (s : State) (n : Notices) : (s.takeNotices n).latched = s.latched := rfl
@[simp] theorem State.takeNotices_act (s : State) (n : Notices) : (s.takeNotices n).act = s.act := rfl
@[simp] theorem State.takeNotices_cycle (s : State) (n : Notices) : (s.takeNotices n).cycle = s.cycle := rfl
@[simp] theorem State.takeNotices_groups (s : State) (n : Notices) : (s.takeNotices n).groups = s.groups := rfl
@[simp] theorem State.takeNotices_dets (s : State) (n : Notices) : (s.takeNotices n).dets = s.dets := rfl
@[simp] theorem State.takeNotices_remotes (s : State) (n : Notices) : (s.takeNotices n).remotes = s.remotes := rfl
@[simp] theorem State.takeNotices_callers (s : State) (n : Notices) : (s.takeNotices n).callers = s.callers := rfl
@[simp] theorem State.takeNotices_claims (s : State) (n : Notices) : (s.takeNotices n).claims = s.claims := rfl
@[simp] theorem State.takeNotices_lamps (s : State) (n : Notices) : (s.takeNotices n).lamps = s.lamps := rfl
@[simp] theorem State.takeNotices_diag (s : State) (n : Notices) : (s.takeNotices n).diag = s.diag := rfl

end Sys2Proof.Machine
end

