-- ==== Sys2Proof/Laws/Sticky.lean ====
section
/-! SUPPORT. Laws/Sticky.lean: the sticky lamp flags (R161) stand through every change of command, mode and state that follows an event. -/

namespace Sys2Proof.Machine

/-- The sticky flags, channel by channel (R161). -/
def State.stickyOf (s : State) (c : ChanId) : Bool × Bool :=
  ((s.lamps.channels.nth c).unSticky, (s.lamps.channels.nth c).loSticky)

theorem Chan.takeCommand_sticky (ph : Bool) (cmd : Command) (c : Chan) :
    ((c.takeCommand ph cmd).unSticky, (c.takeCommand ph cmd).loSticky) = (c.unSticky, c.loSticky) := by
  unfold Chan.takeCommand; split <;> rfl

theorem Chan.agree_sticky (ph : Bool) (c : Chan) :
    ((c.agree ph).unSticky, (c.agree ph).loSticky) = (c.unSticky, c.loSticky) := by
  unfold Chan.agree
  split
  · split <;> rfl
  · rfl

theorem State.lampSync_sticky (s : State) : s.lampSync.stickyOf = s.stickyOf := by
  funext c
  unfold State.lampSync State.monitorSync State.stickyOf
  dsimp only
  rw [Table.nth_tab]
  exact (Chan.agree_sticky _ _).trans (Chan.takeCommand_sticky _ _ _)

theorem State.follow_sticky (s : State) : s.follow.stickyOf = s.stickyOf := by
  rfl

theorem State.request_sticky (s : State) (t : StageId) : (s.request t).stickyOf = s.stickyOf :=
  State.lampSync_sticky _

theorem State.beginChange_sticky (s : State) (a b : StageId) : (s.beginChange a b).stickyOf = s.stickyOf :=
  State.request_sticky _ b

theorem State.replaceChange_sticky (s : State) (c : Change) (t : StageId) :
    (s.replaceChange c t).stickyOf = s.stickyOf := State.request_sticky _ t

theorem State.leaveRed_sticky (s : State) (g : GroupId) : (s.leaveRed g).stickyOf = s.stickyOf := by
  unfold State.leaveRed
  split
  · exact State.lampSync_sticky _
  · exact State.lampSync_sticky _

theorem State.grantStep_sticky {s t : State} (h : s.grantStep = some t) : t.stickyOf = s.stickyOf := by
  unfold State.grantStep at h
  cases hg : firstFin (fun g => s.clearToOpen g) with
  | none => simp [hg] at h
  | some g => rw [hg] at h; cases h; exact s.leaveRed_sticky g

theorem State.startChange_sticky (s : State) : s.startChange.stickyOf = s.stickyOf := by
  unfold State.startChange
  split
  · rfl
  · exact State.request_sticky _ _

theorem State.completeChange_sticky (s : State) (c : Change) : (s.completeChange c).stickyOf = s.stickyOf := by
  unfold State.completeChange
  cases c.replacement with
  | none => rfl
  | some t =>
    dsimp only
    split
    · rfl
    · exact State.beginChange_sticky _ _ _

theorem State.seqStep_sticky {s t : State} (h : s.seqStep = some t) : t.stickyOf = s.stickyOf := by
  unfold State.seqStep at h
  split at h
  · cases h
  · rename_i c _
    split at h
    · cases h; rfl
    · split at h
      · cases h; exact s.completeChange_sticky c
      · cases h
  · split at h
    · rename_i d _ _
      cases hu : s.selectTarget d with
      | none => simp [hu] at h
      | some u => rw [hu] at h; cases h; exact State.beginChange_sticky _ _ _
    · cases h

theorem State.assertService_sticky (s : State) (c : StageId) : (s.assertService c).stickyOf = s.stickyOf := by
  unfold State.assertService
  split
  · rfl
  · split
    · rfl
    · exact State.beginChange_sticky _ _ _
  · split
    · rfl
    · split
      · rfl
      · exact State.replaceChange_sticky _ _ _

theorem State.setService_sticky (s : State) (new : Option StageId) : (s.setService new).stickyOf = s.stickyOf := by
  unfold State.setService
  split
  · rfl
  · cases new with
    | none => rfl
    | some c => exact State.assertService_sticky _ c

theorem State.arbitrate_sticky (s : State) : s.arbitrate.stickyOf = s.stickyOf := by
  unfold State.arbitrate; exact State.setService_sticky _ _

theorem State.settle_sticky (n : Nat) (s : State) : (State.settle n s).stickyOf = s.stickyOf := by
  induction n generalizing s with
  | zero => rfl
  | succ n ih =>
    unfold State.settle
    split
    · rename_i s1 h1
      exact ((ih s1.follow).trans s1.follow_sticky).trans (State.grantStep_sticky h1)
    · split
      · rename_i s1 h1
        exact ((ih s1.follow).trans s1.follow_sticky).trans (State.seqStep_sticky h1)
      · rfl

/-- An entry to a mode leaves every sticky flag. -/
theorem State.enterMode_sticky (s : State) (m : Mode) : (s.enterMode m).stickyOf = s.stickyOf := by
  have hf : ∀ (t : State) (a b : Mode), (t.forceChange a b).stickyOf = t.stickyOf := by
    intro t a b; unfold State.forceChange; split <;> rfl
  have hq : ∀ (t : State) (a b : Mode), (t.seqModeChange a b).stickyOf = t.stickyOf := by
    intro t a b
    unfold State.seqModeChange
    split
    · exact t.startChange_sticky
    · split <;> rfl
  have hc : ∀ t : State, (if m = .check then t.selfCheckStart else t).stickyOf = t.stickyOf := by
    intro t; split <;> rfl
  unfold State.enterMode
  dsimp only
  generalize hu : ({ s with ctrl := { s.ctrl with mode := m, timer := m.timerStart, wait := false } } : State) = u
  have hs : u.stickyOf = s.stickyOf := by rw [← hu]; rfl
  rw [State.lampSync_sticky, State.arbitrate_sticky, hc, hq, hf, hs]

theorem State.endWait_sticky (s : State) : s.endWait.stickyOf = s.stickyOf := by
  unfold State.endWait
  split
  · exact s.enterMode_sticky _
  · rfl

theorem State.raceWait_sticky (s : State) : s.raceWait.stickyOf = s.stickyOf := by
  have h : s.raceWait =
      if s.waitOver then if (s.draw 2).1 = 0 then (s.draw 2).2.endWait else (s.draw 2).2 else s := rfl
  rw [h]
  split
  · split
    · exact State.endWait_sticky (s.draw 2).2
    · rfl
  · rfl

/-- What follows an event leaves every sticky flag. -/
theorem State.react_sticky (s : State) : s.react.stickyOf = s.stickyOf := by
  unfold State.react
  rw [State.lampSync_sticky, State.endWait_sticky, State.settle_sticky, State.raceWait_sticky, State.follow_sticky]

/-- The order to clear the lamp flags gives each sticky flag the value of its live flag (R161). -/
theorem State.clearLampFlags_sticky (s : State) (c : ChanId) :
    s.clearLampFlags.stickyOf c = ((s.lamps.channels.nth c).unLive, (s.lamps.channels.nth c).loLive) := by
  unfold State.clearLampFlags State.stickyOf
  dsimp only
  rw [Table.nth_tab]

/-- The orders of a panel fault reset copy the live flags of the moment before them (R161, R179; log 42). -/
theorem State.faultResetOrders_sticky (s : State) (c : ChanId) :
    s.faultResetOrders.stickyOf c = ((s.lamps.channels.nth c).unLive, (s.lamps.channels.nth c).loLive) := by
  unfold State.faultResetOrders
  dsimp only
  split
  · exact (congrFun (State.enterMode_sticky _ _) c).trans (s.clearLampFlags_sticky c)
  · exact s.clearLampFlags_sticky c

end Sys2Proof.Machine
end

