-- ==== Sys2Proof/Tests/Slice0.lean ====
section
/-! SUPPORT. Tests/Slice0.lean: the model's own tests: an ill-formed command for each check, one small step for most commands, and for each statement a state and operands that meet its hypotheses. -/

namespace Sys2Proof.Tests

set_option Elab.async false

open Sys2Proof.Machine

/-! ### A small plan and small states -/

/-- G1 and G2 are VEHICLE groups in conflict, G1 with tPRE 1.5 s and G2 with none; G3 is WALK. -/
def vehicle (tPRE : Nat) : GroupPlan :=
  { kind := .vehicle, aspect := .amber, tPRE := tPRE, tMIN := 50, tMAX := 300, tGAP := 20, tCLR := 30
    recallFlag := false }

def walk : GroupPlan :=
  { kind := .walk, aspect := .dark, tPRE := 0, tMIN := 50, tMAX := 0, tGAP := 0, tCLR := 80, recallFlag := false }

def unused : GroupPlan :=
  { kind := .unused, aspect := .dark, tPRE := 0, tMIN := 0, tMAX := 0, tGAP := 0, tCLR := 0, recallFlag := false }

def detector (mode : DetMode) : LocalDef :=
  { mode := mode, tDF := 5, locking := true, calls := 1, extends_ := if mode = .presence then 1 else 0, tMP := 10
    tMSL := if mode = .pulse then 24 else 0 }

/-- Station S3 with stages S1 (G1) and S2 (G2), detectors D1 to D5 of the five modes, and route 1 over S2 and S3. -/
def plan : Plan :=
  { station := 2, fingerprint := 4660, tSF := 40, tAR := 30
    cycleLength := .tab fun i => if i = 0 then 600 else 400
    dist := .tab fun n => .tab fun k => if n = 0 then (if k = 1 then some 0 else if k = 2 then some 30 else none) else none
    lead := .tab fun _ => 10, lifeEmergency := 120, lifeTransit := 60, holdEmergency := 10, holdTransit := 5
    groups := .tab fun g => if g = 0 then vehicle 15 else if g = 1 then vehicle 0 else if g = 2 then walk else unused
    conflicts := .tab fun g => if g = 0 then 2 else if g = 1 then 1 else 0
    clearance := .tab fun a => .tab fun b => if a = 0 ∧ b = 1 then some 20 else none
    stages := .tab fun t => if t = 0 then 1 else if t = 1 then 2 else 0
    sequence := [0, 1]
    local_ := .tab fun d =>
      if d = 0 then some (detector .presence) else if d = 1 then some (detector .pulse)
      else if d = 2 then some (detector .button) else if d = 3 then some (detector (.claim 0 .emergency))
      else if d = 4 then some (detector (.checkout 0)) else none
    remote := .tab fun _ => none
    patterns := .tab fun _ => { ofs := 40, pREL := 200, pFO := .tab fun _ => 300 }
    routes := .tab fun n => { stage := if n = 0 then some 1 else none, checkout := if n = 0 then some 4 else none }
    signs := .tab fun _ => .none }

/-- The station in a mode, with its plan, its line ACTIVE and its frame timer at `t`. -/
def station (mode : Mode) (t : Nat) : State :=
  { State.reset with
    resetPin := { raw := false, time := 63, level := some false }
    plan := some plan
    ctrl := { Ctrl.reset with mode := mode }
    line := { Line.reset with st := .active, frameTimer := some t }
    groups := .tab fun _ => { Group.reset with state := .red } }

/-! ### Ill-formed commands -/

theorem test_illformed_run : (Instr.dominantRunEnd 0 false).wellFormed = false := by decide
theorem test_illformed_stuck : (Instr.lineStuck 183).wellFormed = false := by decide
theorem test_illformed_collision : (Instr.collision (.dominant (some 24))).wellFormed = false := by decide
theorem test_illformed_reception : (Instr.slotReception 3 360 512 []).wellFormed = false := by decide
theorem test_illformed_reception_order : (Instr.slotReception 3 20 512 [⟨10, 512⟩]).wellFormed = false := by decide
theorem test_illformed_classification : (Instr.peerClassification 3 [1, 2]).wellFormed = false := by decide
theorem test_illformed_conflict : (Instr.conflict 3 3).wellFormed = false := by decide
/-- A transfer without its acknowledgements, one whose levels end inside a byte, and one of no byte; failures that are
none, or go on after the level on which they fail. -/
theorem test_illformed_transfer :
    [Instr.planTransfer [], .planTransfer (List.replicate 14 true),
      .planTransfer ([true, false, false, false, true, false] ++ List.replicate 7 true),
      .planTransfer [true, false, false, false, true, false], .transferFailure [true, false, false, false, true, false],
      .transferFailure (List.replicate 7 true)].all (fun c => !c.wellFormed) = true := by decide
theorem test_wellformed_transfer :
    [Instr.planTransfer ([true, false, false, false, true, false] ++ List.replicate 8 true),
      .transferFailure [false], .transferFailure [true, true], .transferFailure [true, false, true],
      .transferFailure [true, false, false, true], .transferFailure [true, false, false, false, false],
      .transferFailure [true, false, false, false, true, true]].all (·.wellFormed) = true := by decide
theorem test_illformed_error : (Instr.errorReply (lineLevels 83)).wellFormed = false := by decide
theorem test_wellformed_error : (Instr.errorReply (lineLevels 84)).wellFormed = true := by decide
theorem test_illformed_queries :
    [Instr.stationQuery (lineLevels 115), .groupsQuery 655, .detectorsQuery 136, .peersQuery (lineLevels 83),
      .claimsQuery 0, .faultsQuery 1023, .countsQuery (lineLevels 70), .diagFramingError (lineLevels 83),
      .diagCharacterIgnored 1023, .errorReply 0].all (fun c => !c.wellFormed) = true := by decide

/-- The levels that a row has where it is named without them are those of its own character. -/
theorem test_wellformed_queries :
    [Instr.stationQuery, .groupsQuery, .detectorsQuery, .peersQuery, .claimsQuery, .faultsQuery, .countsQuery,
      .diagFramingError, .diagCharacterIgnored 0].all (fun c => c.wellFormed) = true ∧
    Instr.stationQuery = .stationQuery (lineLevels 83) ∧ Instr.groupsQuery = .groupsQuery (lineLevels 71) ∧
    Instr.detectorsQuery = .detectorsQuery (lineLevels 68) ∧ Instr.peersQuery = .peersQuery (lineLevels 80) ∧
    Instr.claimsQuery = .claimsQuery (lineLevels 67) ∧ Instr.faultsQuery = .faultsQuery (lineLevels 70) ∧
    Instr.countsQuery = .countsQuery (lineLevels 78) := by decide

/-! ### Hypotheses met: the queue, start-up reset, the plan read -/

/-- The command meets a queue that it heads. -/
theorem test_meets_StepTakesTheFrontCommand :
    ({ State.reset with pending := [.stationQuery] } : State).pending = .stationQuery :: [] := by decide

theorem test_meets_EmptyQueue_tick : State.reset.pending = [] ∧ State.reset.dueEvents = [] := by decide

theorem test_meets_EmptyQueue_due :
    ({ State.reset with resetPin := { raw := true, time := 63, level := some false } } : State).dueEvents ≠ [] := by
  decide

/-- Conditions that do not hold: in DARK, and just before their times. -/
theorem test_meets_Idle_station :
    State.reset.supplyOk = true ∧ State.reset.resetPin.level ≠ some false ∧ (station .running 0).ctrl.mode ≠ .dark ∧
    State.reset.ctrl.mode ≠ .loading ∧ State.reset.ctrl.timer = none ∧ State.reset.lamps.selfCheck ≠ .running ∧
    (station .running 0).cycle.pair = (station .running 0).cycle.requested ∧
    (station .running 0).line.frameTimer = some 0 ∧ 0 < 6250 ∧ State.reset.line.frameTimer = none ∧
    State.reset.line.markDrive ≠ some 0 ∧ State.reset.line.pending = none ∧ State.reset.line.st.receiving = false ∧
    State.reset.line.st ≠ .stuck ∧ State.reset.line.sending = none ∧ State.reset.line.txEnd ≠ some .judging ∧
    State.reset.line.sentBit ≠ some false ∧ State.reset.line.sentBit ≠ some true ∧
    State.reset.line.sfKind ≠ .timed ∧ State.reset.line.listenCount ≠ 2 ∧
    (station .running 0).line.st.receiving = true ∧ (200 : Nat) ≤ 200 ∧ 0 < 250 + 360 * (0 : StationId).val + 120 := by
  decide

theorem test_meets_Idle_blocks :
    goodRecord 3 [] = none ∧ (State.reset.peers.nth 0).miss < 9 ∧ (State.reset.peers.nth 0).presence ≠ .lost ∧
    State.reset.plan = none ∧ State.reset.cycle.active = 0 ∧ State.reset.lamps.flashCount ≠ 4 ∧
    (∀ g, (station .running 0).clearToOpen g = false) ∧ ((station .running 0).groups.nth 0).state ≠ .prepare ∧
    ((station .running 0).groups.nth 0).state ≠ .green ∧ ((station .running 0).groups.nth 0).state ≠ .clearing ∧
    (!true) = ((station .running 0).dets.nth 0).raw ∧ ((station .running 0).dets.nth 0).pulse = none ∧
    (station .running 0).localDef 9 = none ∧ (station .running 0).localDef 0 = some (detector .presence) ∧
    ((station .running 0).dets.nth 0).filt < 625 * (detector .presence).tDF ∧
    ((station .running 0).dets.nth 0).raw = ((station .running 0).dets.nth 0).level ∧
    ((station .running 0).dets.nth 0).presence = none ∧ State.reset.claims.table = [] ∧
    (State.reset.lamps.channels.nth 0).settle = none ∧ (State.reset.lamps.channels.nth 0).unTime < 31250 ∧
    (State.reset.lamps.channels.nth 0).loTime < 62500 ∧ (station .running 0).pairLit 0 1 = false ∧
    (station .running 0).greenLit 0 = false ∧ State.reset.redDark 0 = false := by decide

/-- A supply that is low, a supply at its level, DARK and another mode. -/
theorem test_meets_EmptyQueue_clauses :
    ({ State.reset with supplyOk := false } : State).supplyOk = false ∧ State.reset.supplyOk = true ∧
    State.reset.ctrl.mode = .dark ∧ (station .running 0).ctrl.mode ≠ .dark := by decide

/-- In DARK: after power-on, with the RESET line filtered as released or not yet filtered, the supply at its level or
not. -/
def dark (supply : Bool) (level : Option Bool) : State :=
  { State.reset with supplyOk := supply, resetPin := { raw := true, time := 5, level := level } }

theorem test_meets_StartUpReset_held :
    (∃ held, ResetCause.resetLine 63 = .resetLine held ∧ tRF ≤ held ∧ (station .running 0).supplyOk = true) ∧
    (station .running 0).resetPin.level = some false ∧ (station .running 0).resetPin.level ≠ some true ∧ 62 < tRF ∧
    (dark true (some true)).supplyOk = true ∧ (dark true (some true)).resetPin.level = some true ∧
    (dark false none).supplyOk = false :=
  ⟨⟨63, rfl, by decide⟩, by decide⟩

theorem test_meets_ResetRelease :
    (dark true (some false)).ctrl.mode = .dark ∧ (dark true (some false)).planRead = PlanRead.reset ∧
    (dark true (some false)).supplyOk = true ∧ (dark true (some false)).resetPin.level = some false ∧
    (dark false none).supplyOk = false ∧ (dark true (some true)).resetPin.level ≠ some false ∧
    (station .running 0).ctrl.mode ≠ .dark := by decide

/-- Reading the first block, its first attempt begun. -/
def reading : State :=
  { State.reset with
    ctrl := { Ctrl.reset with mode := .loading }
    planRead := { PlanRead.reset with readState := .reading, port := transferItems 0 64, attempt := some 0 } }

/-- The levels of a transfer that the memory acknowledges and answers with these bytes. -/
def answered (bytes : List Byte) : List Bool := [true, false, false, false, true, false] ++ bytes.flatMap portBits

/-- A first block with a good header, of an image of one block. -/
def block : List Byte := [76, 82, 64, 0, 1] ++ List.replicate 59 0

theorem test_meets_PlanRead_notStarted :
    (.stationQuery : Instr) ≠ .resetRelease ∧ exec .stationQuery State.reset = .next State.reset ∧
    State.reset.planRead.readState = .notStarted := ⟨nofun, rfl, by decide⟩

theorem test_meets_TransferStores_last :
    reading.ctrl.mode = .loading ∧ reading.planRead.readState = .reading ∧ reading.planRead.port ≠ [] ∧
    reading.transferRun (answered block) = .done block ∧ headerCode block = none ∧
    imageLength (reading.planRead.buffer ++ block) ≤ reading.planRead.nextBlock + 64 := by decide +kernel

theorem test_meets_TransferStores_more :
    reading.transferRun (answered (76 :: 82 :: 65 :: block.drop 3)) = .done (76 :: 82 :: 65 :: block.drop 3) ∧
    headerCode (76 :: 82 :: 65 :: block.drop 3) = none ∧
    reading.planRead.nextBlock + 64 < imageLength (reading.planRead.buffer ++ 76 :: 82 :: 65 :: block.drop 3) := by
  decide +kernel

/-- A blank memory, whose bytes are 255. -/
theorem test_meets_TransferStores_fault :
    reading.planRead.nextBlock = 0 ∧ reading.transferRun (answered (List.replicate 64 255)) = .done (List.replicate 64 255) ∧
    headerCode (List.replicate 64 255) = some 2 ∧ reading.ctrl.reasons = Ctrl.reset.reasons := by decide +kernel

/-- Every way in which a transfer fails; a memory that is absent, whose lines are pulled up, acknowledges nothing. -/
theorem test_meets_TransferRetries :
    [[false], [true, true], [true, false, true], [true, false, false, true], [true, false, false, false, false],
      [true, false, false, false, true, true], []].map reading.transferRun =
      [.failed .dataLow, .failed .noAckAddress, .failed .noAckBlockStart, .failed .noAckBlockStart, .failed .dataLow,
        .failed .noAckAddress, .failed .noAckAddress] ∧
    reading.planRead.port = transferItems 0 64 ∧ reading.planRead.blockSize = 64 ∧ reading.planRead.retry < 3 ∧
    3 ≤ ({ reading with planRead := { reading.planRead with retry := 3 } } : State).planRead.retry ∧
    ({ reading with planRead := { reading.planRead with port := [], attempt := some 313 } } : State).planRead.port = [] ∧
    313 ≤ 313 := by decide +kernel

/-- The bits of a byte stand the most significant first. -/
theorem test_meets_portByte :
    portByte [true, false, true, false, true, false, false, false] = 168 ∧ portByte [] = 255 ∧ 7 < 8 := by decide

/-- In CHECKING with an empty buffer, whose check fails with a code. -/
def checking : State :=
  { reading with planRead := { PlanRead.reset with readState := .checking, checkAge := some 0 } }

theorem test_meets_PlanValidation_error :
    checking.ctrl.mode = .loading ∧ checking.planRead.readState = .checking ∧
    (match checkImage checking.planRead.buffer with
      | .ok _ => false
      | .error c => c == 5) = true := by decide

/-! ### The plan image of the worked example 10.7 -/

/-- A two-byte field, low byte first. -/
def word (n : Nat) : List Byte := halfBytes (BitVec.ofNat 16 n)

/-- A body with `v` in one place of `n` items of equal length. -/
def items (n : Nat) (rest : List Byte) (at_ : List (Nat × List Byte)) : List Byte :=
  (List.range n).flatMap fun i => ((at_.find? fun e => e.1 == i).map (·.2)).getD rest

/-- The ten bodies of the worked example 10.7; `fo` is pFO(S2) of pattern 1. -/
def example107 (fo : Nat) : Image :=
  { station := [7] ++ word 80 ++ word 50
    corridor := word 600 ++ word 900 ++ word 400 ++
      items 16 [255, 255] [(5, word 0), (7, word 14), (9, word 30)] ++ List.replicate 224 255 ++
      [20, 0, 0, 0, 0, 0, 0, 0, 120, 90, 10, 8]
    groups := items 16 (2 :: List.replicate 12 0)
      [(0, [0, 0] ++ word 15 ++ word 120 ++ word 400 ++ word 30 ++ word 40 ++ [1]),
       (1, [0, 1] ++ word 15 ++ word 80 ++ word 250 ++ word 25 ++ word 35 ++ [0]),
       (4, [1, 2] ++ word 0 ++ word 70 ++ word 0 ++ word 0 ++ word 80 ++ [0])]
    conflicts := items 16 (word 0) [(0, word 18), (1, word 1), (4, word 1)] ++
      items 256 [255] [(1, [25]), (16, [20]), (4, [15]), (64, [40])]
    stages := items 12 (word 0) [(0, word 1), (1, word 18)]
    sequence := [1, 2]
    detectors := items 24 (List.replicate 11 0)
      [(0, [1, 10, 1] ++ word 2 ++ word 2 ++ [5, 24, 0, 0]), (1, [1, 10, 0] ++ word 0 ++ word 1 ++ [10, 0, 0, 0]),
       (2, [3, 5, 0] ++ word 16 ++ word 0 ++ [2, 24, 0, 0]), (3, [4, 20, 0] ++ word 0 ++ word 0 ++ [1, 0, 1, 0])] ++
      items 16 [255, 0, 0, 0, 0, 0] [(0, [6, 2] ++ word 0 ++ word 1)]
    patterns := items 3 [] [(0, word 120 ++ word 300 ++ items 12 (word 0) [(1, word fo)]),
      (1, word 180 ++ word 400 ++ items 12 (word 0) [(1, word 700)]),
      (2, word 60 ++ word 200 ++ items 12 (word 0) [(1, word 270)])]
    routes := items 8 [0, 0] [(0, [1, 0])]
    signs := items 8 [0, 0] [(0, [3, 5]), (1, [5, 0])] }

/-- A section with its tag and length. -/
def section_ (tag : Byte) (body : List Byte) : List Byte := tag :: word body.length ++ body

/-- The image of the worked example, its unknown section among the others, up to its CRC. -/
def front107 (fo : Nat) : List Byte :=
  let m := example107 fo
  [76, 82] ++ word 1330 ++ [1] ++ section_ 1 m.station ++ section_ 2 m.corridor ++ section_ 3 m.groups ++
    section_ 4 m.conflicts ++ section_ 200 (List.replicate 10 7) ++ section_ 5 m.stages ++ section_ 6 m.sequence ++
    section_ 7 m.detectors ++ section_ 8 m.patterns ++ section_ 9 m.routes ++ section_ 10 m.signs ++ section_ 0 []

theorem test_example107_content : (example107 450).contentCode = none := by decide +kernel

/-- The error code of a check. -/
def errorOf {α : Type} (r : Except Nat α) : Option Nat :=
  match r with
  | .ok _ => none
  | .error c => some c

/-- The chain ends; it is too short, its END has a length, bytes follow it, a section overruns it; an unknown section
is passed over; a duplicate, a wrong size and a sequence that is too long; a missing section; and a wrong CRC. -/
theorem test_meets_ImageChecks :
    [walkChain 9 [0, 0, 0] [], walkChain 9 [0, 0] [], walkChain 9 [0, 1, 0] [], walkChain 9 [0, 0, 0, 7] [],
      walkChain 9 [6, 2, 0, 1] [], walkChain 9 [200, 1, 0, 7, 0, 0, 0] [],
      walkChain 9 (section_ 6 [1] ++ section_ 6 [1] ++ [0, 0, 0]) [], walkChain 9 (section_ 1 [7] ++ [0, 0, 0]) [],
      walkChain 9 (section_ 6 (List.replicate 13 1) ++ [0, 0, 0]) [], walkChain 9 (section_ 6 [] ++ [0, 0, 0]) []].map
      errorOf = [none, some 6, some 6, some 6, some 6, none, some 7, some 9, some 9, some 9] ∧
    errorOf (imageOf [(1, [])]) = some 8 ∧
    errorOf (imageOf ([1, 2, 3, 4, 5, 6, 7, 8, 9, 10].map fun t => (t, []))) = none ∧
    imageCrcOk [76, 82, 7, 0, 1, 0, 0] 7 = false ∧ bodyOf [(6, [1]), (1, [7])] 1 = [7] := by decide +kernel

/-- An image with a detector of each mode, a check-out detector of its route and a sign of each source. -/
def example107Full : Image :=
  { example107 450 with
    detectors := items 24 (List.replicate 11 0)
      [(0, [1, 10, 1] ++ word 2 ++ word 2 ++ [5, 24, 0, 0]), (1, [2, 10, 0] ++ word 0 ++ word 1 ++ [10, 0, 0, 0]),
       (2, [3, 5, 0] ++ word 16 ++ word 0 ++ [2, 24, 0, 0]), (3, [4, 20, 0] ++ word 0 ++ word 0 ++ [1, 0, 1, 1]),
       (4, [5, 20, 0] ++ word 0 ++ word 0 ++ [1, 0, 1, 0])] ++
      items 16 [255, 0, 0, 0, 0, 0] [(0, [6, 2] ++ word 0 ++ word 1)]
    routes := items 8 [0, 0] [(0, [1, 5])]
    signs := items 8 [0, 0] [(0, [1, 1]), (1, [2, 5]), (2, [3, 5]), (3, [4, 8]), (4, [5, 0]), (5, [6, 0])] }

/-- Every value that the layout's clauses tell apart stands in an image that passes. -/
theorem test_meets_ImageContents :
    example107Full.contentCode = none ∧
    ([0, 4, 15].map fun g => example107Full.kindRaw g) = [0, 1, 2] ∧
    ([0, 1, 2, 3, 4, 5].map fun d => example107Full.detByte d 0) = [1, 2, 3, 4, 5, 0] ∧
    ([0, 1].map fun r => example107Full.remoteSource r) = [6, 255] ∧
    ([0, 1].map fun n => example107Full.routePasses n) = [true, false] ∧
    example107Full.routeCheckoutRaw 0 = 5 ∧ (example107 450).routeCheckoutRaw 0 = 0 ∧
    (([0, 1, 2, 3, 4, 5, 6] : List SignId).map fun j => byteAt example107Full.signs (2 * j.val)) = [1, 2, 3, 4, 5, 6, 0] ∧
    example107Full.heldStages = [1] ∧ example107Full.largestIG = 40 ∧
    (∀ b ∈ example107Full.sequence, 1 ≤ b.toNat ∧ b.toNat ≤ 12) ∧ example107Full.sequenceList = [0, 1] ∧
    example107Full.igRaw 0 1 ≠ 255 ∧ example107Full.igRaw 0 0 = 255 := by decide +kernel

/-- With pFO(S2) 500 in pattern 1 the load fails with code 20. -/
theorem test_example107_too_short : (example107 500).contentCode = some 20 := by decide +kernel

/-- The walk of the chain gives the ten bodies back. -/
theorem test_example107_chain :
    (front107 450).length = 1328 ∧ imageLength (withCrc (front107 450)) = 1330 ∧
    (match walkChain 1330 ((front107 450).drop 5) [] with
      | .ok met => (match imageOf met with
        | .ok m => m == example107 450
        | .error _ => false)
      | .error _ => false) = true := by decide +kernel

/-- The image of the worked example is loaded. -/
theorem test_meets_PlanValidation_ok :
    checkImage (withCrc (front107 450)) = .ok (example107 450).plan := by
  obtain ⟨h1, h2, h3⟩ := test_example107_chain
  have hc : imageCrcOk (withCrc (front107 450)) 1330 = true := by
    have e : (1330 : Nat) - 2 = (front107 450).length := by rw [h1]
    unfold imageCrcOk withCrc
    rw [e, List.drop_left, List.take_left]
    exact beq_self_eq_true _
  have hd : ((withCrc (front107 450)).drop 5).take (1330 - 7) = (front107 450).drop 5 := by
    have e : (1330 : Nat) - 7 = ((front107 450).drop 5).length := by rw [List.length_drop, h1]
    unfold withCrc
    rw [List.drop_append_of_le_length (by rw [h1]; decide), e, List.take_left]
  unfold checkImage
  dsimp only
  rw [h2, if_pos hc, hd]
  revert h3
  cases walkChain 1330 ((front107 450).drop 5) [] with
  | error e => intro h; nomatch h
  | ok met =>
    dsimp only
    cases imageOf met with
    | error e => intro h; nomatch h
    | ok m =>
      dsimp only
      intro h
      rw [beq_iff_eq] at h
      rw [h, test_example107_content]

/-! ### Hypotheses met: the corridor line -/

/-- The line interface of `s` changed by `f`. -/
def onLine (f : Line → Line) (s : State) : State := { s with line := f s.line }

theorem test_meets_MarkDrive :
    (station .running 6250).line.frameTimer = some (6250 + 0) ∧ (station .running 6250).line.pending = none ∧
    (station .running 6250).line.st = .active ∧ (∃ a, some 16 = some a ∧ a ≤ 16) ∧ 16 < 17 ∧
    (onLine (fun l => { l with st := .listen }) (station .running 6250)).line.st = .listen ∧
    (onLine (fun l => { l with st := .off }) (station .running 6250)).line.st = .off ∧
    (onLine (fun l => { l with markDrive := some 0 }) (station .running 6250)).line.markDrive = some 0 :=
  ⟨by decide, by decide, by decide, ⟨16, rfl, by decide⟩, by decide, by decide, by decide, by decide⟩

/-- An expiry 32 bit times ago is pending. -/
def pendingAt (age : Nat) (run : Bool) : State :=
  onLine (fun l => { l with pending := some { age := age, run := run } }) (station .running (6250 + age))

theorem test_meets_RunEnd_resolves :
    (pendingAt 32 true).line.st.receiving = true ∧ (pendingAt 32 true).line.markDrive = none ∧ 32 ≤ 200 ∧
    (pendingAt 32 true).line.resolves 32 = true ∧ (pendingAt 216 true).line.resolves 200 = true ∧
    (pendingAt 17 false).line.resolves 1 = true := by decide

/-- The own slot, one that had ended, the one in progress, and one that had not begun, of a frame cut at 700. -/
theorem test_meets_RunEnd_outcomes :
    (station .running 4000).ownSlot 2 = true ∧ (station .running 4000).cutOutcome 700 true 2 = .own ∧
    (station .running 4000).cutOutcome 700 true 0 = .silent ∧ (station .running 4000).cutOutcome 700 true 1 = .bad ∧
    (station .running 4000).cutOutcome 700 false 1 = .silent ∧ (station .running 4000).cutOutcome 700 true 3 = .silent := by
  decide

theorem test_meets_RunEnd_cut :
    (station .running 4000).line.resolves 24 = false ∧ (runClass 24).valid = true ∧ (runClass 48).valid = true ∧
    (runClass 80).valid = true ∧ (runClass 112).valid = true := by decide

theorem test_meets_RunWithoutABoundary :
    (station .running 4000).line.resolves 200 = false ∧ (runClass 23).valid = false ∧ (runClass 49).valid = false ∧
    (runClass 79).valid = false ∧ (runClass 113).valid = false ∧ (runClass 200).valid = false ∧
    State.reset.line.st.receiving = false ∧ State.reset.line.markDrive = none := by decide

theorem test_meets_JoinWindowClose :
    (pendingAt 16 false).line.pending = some { age := 16, run := false } ∧
    (pendingAt 16 false).line.st.receiving = true ∧
    (onLine (fun l => { l with st := .stuck }) (pendingAt 16 false)).line.st.receiving = false := by decide

theorem test_meets_LineStuck :
    (station .running 4000).line.st.receiving = true ∧ 200 < 201 ∧ (station .running 4000).line.pending = none ∧
    (∃ q, (pendingAt 200 true).line.pending = some q ∧ 200 ≤ q.age ∧ q.age ≤ 184 + 16) :=
  ⟨by decide, by decide, by decide, _, rfl, by decide, by decide⟩

/-- Station S3 at the end of its lead-in, with a snapshot to send. -/
def atLeadIn : State :=
  onLine (fun l => { l with snapshot := [19] }) (station .running (250 + 360 * 2 + 40))

theorem test_meets_RecordTransmission :
    atLeadIn.plan = some plan ∧ atLeadIn.line.frameTimer = some (250 + 360 * plan.station.val + 40) ∧
    atLeadIn.line.sending = none ∧ atLeadIn.line.txEnd = none ∧ atLeadIn.line.snapshot ≠ [] ∧
    atLeadIn.line.st = .active ∧ (onLine (fun l => { l with st := .listen }) atLeadIn).line.st ≠ .active ∧
    (onLine (fun l => { l with sending := some 0 }) atLeadIn).line.sending.isSome = true ∧
    (onLine (fun l => { l with txEnd := some .judging }) atLeadIn).line.txEnd = some .judging := by
  refine ⟨rfl, ?_⟩
  decide

/-- Each of the ten bits of the character 19 under way, no mark driven; and a mark driven. -/
theorem test_meets_drivesDominant :
    atLeadIn.line.snapshot[0]? = some 19 ∧ atLeadIn.line.markDrive = none ∧ atLeadIn.line.sending = none ∧
    (onLine (fun l => { l with sending := some (10 * 0 + 1 + 7) }) atLeadIn).line.sending = some (10 * 0 + 1 + 7) ∧
    (onLine (fun l => { l with markDrive := some 32 }) atLeadIn).line.markDrive.isSome = true ∧
    (List.range 10).map (fun n => (onLine (fun l => { l with sending := some n }) atLeadIn).drivesDominant) =
      [true, false, false, true, true, false, true, true, true, false] := by decide

/-- The own slot is over with a transmission that ended so. -/
def slotOver (e : TxEnd) (runs budget : Nat) : State :=
  onLine (fun l => { l with txEnd := some e, collisionRun := runs, budget := budget })
    (station .running (250 + 360 * 3))

/-- The bits of a start bit, of the data bits 0 and 2 of the character 19, and of its stop bit; and no bit sent. -/
theorem test_meets_SentBits :
    atLeadIn.line.snapshot[0]? = some 19 ∧ 10 * atLeadIn.line.snapshot.length ≤ 10 ∧
    [0, 1, 3, 9, 10].map (fun n => (onLine (fun l => { l with sending := some n }) atLeadIn).line.sentBit) =
      [some false, some true, some false, some true, none] ∧ atLeadIn.line.sentBit = none ∧
    (onLine (fun l => { l with sending := some 0 }) atLeadIn).line.txEnd = none := by decide

theorem test_meets_EndOfATransmission :
    (onLine (fun l => { l with sending := some 10, snapshot := [19] }) (station .running 0)).line.sending = some 10 ∧
    10 * [19].length ≤ 10 ∧ (slotOver .judging 0 1).line.txEnd = some .judging ∧ 23 < 24 ∧
    (slotOver .clean 0 1).line.frameTimer = some (250 + 360 * (plan.station.val + 1)) ∧
    (slotOver .clean 0 1).line.txEnd = some .clean ∧ (slotOver .slip 0 1).line.txEnd = some .slip ∧
    (slotOver .collision 1 1).line.collisionRun < 2 ∧ 2 ≤ (slotOver .collision 2 1).line.collisionRun ∧
    (slotOver .collision 2 1).line.st = .active ∧ (slotOver .collision 2 1).line.budget ≠ 0 ∧
    (slotOver .collision 2 0).line.budget = 0 := by decide

theorem test_meets_LineStateTimesEnd :
    (onLine (fun l => { l with st := .silentFault, sfKind := .timed, sfHold := 599 }) (station .running 0)).line.st ≠
      .stuck ∧
    (onLine (fun l => { l with st := .stuck, sfKind := .timed, sfHold := 599 }) (station .running 0)).line.sfHold = 599 ∧
    (onLine (fun l => { l with st := .listen, listenCount := 2 }) (station .running 0)).line.listenCount = 2 ∧
    (onLine (fun l => { l with st := .stuck, recessive := 6250 }) (station .running 0)).line.run = none ∧
    6250 ≤ (onLine (fun l => { l with st := .stuck, recessive := 6250 }) (station .running 0)).line.recessive := by
  decide

/-- Each boundary counts a timed hold, a hold that ends, LISTEN, its third boundary, and neither. -/
theorem test_meets_LineBoundaryCounts :
    ({ Line.reset with sfKind := .timed, sfHold := 598 } : Line).txEnd ≠ some .collision ∧
    ({ Line.reset with sfKind := .timed, sfHold := 598 } : Line).sfHold < 599 ∧
    ({ Line.reset with st := .silentFault, sfKind := .timed, sfHold := 599 } : Line).st ≠ .stuck ∧
    ({ Line.reset with st := .listen, listenCount := 1 } : Line).sfKind ≠ .timed ∧
    ({ Line.reset with st := .listen, listenCount := 1 } : Line).listenCount < 2 ∧
    ({ Line.reset with st := .listen, listenCount := 2 } : Line).listenCount = 2 ∧
    ({ Line.reset with st := .active } : Line).st ≠ .listen := by decide

/-- A boundary that finds a transmission uncounted: a clean one, the first collision, and the third with and without
the retry budget. -/
theorem test_meets_LineBoundary_transmission :
    ({ Line.reset with txEnd := some .clean } : Line).txEnd = some .clean ∧
    ({ Line.reset with txEnd := some .collision, collisionRun := 1 } : Line).collisionRun < 2 ∧
    2 ≤ ({ Line.reset with txEnd := some .collision, collisionRun := 2, budget := 1 } : Line).collisionRun ∧
    ({ Line.reset with txEnd := some .collision, collisionRun := 2, budget := 1 } : Line).budget ≠ 0 ∧
    ({ Line.reset with txEnd := some .collision, collisionRun := 2, budget := 0 } : Line).budget = 0 := by decide

theorem test_meets_SlotsAreJudged :
    (station .running (250 + 360 * 4)).line.st.receiving = true ∧
    (station .running (250 + 360 * 4)).ownSlot 3 = false ∧ (station .running 0).line.outcomes.nth 3 = none ∧
    250 + 360 * (3 : StationId).val + 120 ≤ 250 + 360 * 4 ∧
    250 + 360 * ((3 : StationId).val + 1) ≤ 250 + 360 * 4 ∧
    (station .running (250 + 360 * 4)).line.frameTimer = some (250 + 360 * 4) := by decide

/-! ### Hypotheses met: records and peers -/

/-- A record of station S2 with two own claims and a service report. -/
def record : Record :=
  { station := 1, format := 1, fingerprint := 4660, mode := 4, checkPassed := true, step := 0, clock := true
    manual := false, active := 1, requested := 1, current := 1, target := 0, position := 599, occupancy := 3
    faults := 0, claims := [{ serial := 5, route := 0, emergency := true }, { serial := 6, route := 1, emergency := false }]
    reports := [{ origin := 2, serial := 0, state := 1 }] }

/-- A character as received from an edge at `pos`: a dominant start bit, its bits the least significant first, a
recessive stop bit (R2). -/
def edgeOf (pos : Nat) (b : Byte) : RxEdge := { pos := pos, levels := BitVec.ofNat 10 (512 + 2 * b.toNat) }

/-- The record's characters as received from `pos` on, one after another without a gap. -/
def received (pos : Nat) : List RxEdge := record.encode.zipIdx.map fun x => edgeOf (pos + 10 * x.2) x.1

/-- An edge whose start bit reads recessive at its middle. -/
def noise (pos : Nat) : RxEdge := { pos := pos, levels := BitVec.ofNat 10 1023 }

theorem test_meets_GoodSlotOutcome :
    record.claims.length ≤ 2 ∧ record.reports.length ≤ 3 ∧
    ((noise 100 :: received 120).filter accepted).map rxValue = record.encode ∧
    (∀ e ∈ ((noise 100 :: received 120).filter accepted).head?, e.pos ≤ 120) ∧ record.station.toFin = 1 ∧
    wellFramed ((noise 100 :: received 120).filter accepted) = true ∧ record.station.toFin ≠ 3 := by decide +kernel

/-- A further start edge too late, no start edge within tSS, a wrong CRC, too few characters, and own-claim counts of 3
and of another length. -/
theorem test_meets_GoodSlotOutcome_bad :
    wellFramed ((received 0 ++ [edgeOf 350 0]).filter accepted) = false ∧
    (∀ e ∈ ((received 121).filter accepted).head?, 120 < e.pos) ∧
    (∀ e ∈ (([noise 5] : List RxEdge).filter accepted).head?, 120 < e.pos) ∧
    crcMatches (0 :: record.encode.drop 1) = false ∧ (record.encode.take 15).length < 16 ∧
    (record.encode.take 4 ++ 48 :: record.encode.drop 5)[4]? = some 48 ∧
    (48 : Byte).extractLsb' 4 2 = 3#2 ∧
    (record.encode.take 19)[4]? = record.encode[4]? ∧ record.encode[4]?.isSome = true ∧
    goodRecord 1 (record.encode.take 15) = none := by decide +kernel

/-- Peer S2 in a presence state, with counts. -/
def peerAt (p : Presence) (run miss : Nat) : State :=
  { station .running 0 with
    peers := (Table.tab fun _ => Peer.reset).put 1
      { presence := p, run := run, miss := miss, record := some record, fresh := true, badCount := 0 } }

theorem test_meets_PeerEntryTransitions :
    (peerAt .heard 2 0).peers.nth 1 =
      { presence := .heard, run := 2, miss := 0, record := some record, fresh := true, badCount := 0 } ∧
    ((peerAt .present 3 9).peers.nth 1).presence = .present ∧ ((peerAt .present 3 9).peers.nth 1).miss = 9 ∧
    ((peerAt .lost 0 49).peers.nth 1).presence = .lost ∧ ((peerAt .lost 0 49).peers.nth 1).miss = 49 := by decide

/-- An entry of each presence state, its counts on both sides of their limits. -/
theorem test_meets_PeerEvaluation :
    Peer.reset.presence = .absent ∧ ((peerAt .heard 1 0).peers.nth 1).run < 2 ∧
    2 ≤ ((peerAt .heard 2 0).peers.nth 1).run ∧ (Outcome.bad = .bad ∨ Outcome.bad = .silent) ∧
    ((peerAt .present 3 8).peers.nth 1).miss < 9 ∧ 9 ≤ ((peerAt .present 3 9).peers.nth 1).miss ∧
    ((peerAt .lost 0 48).peers.nth 1).miss < 49 ∧ 49 ≤ ((peerAt .lost 0 49).peers.nth 1).miss ∧
    ({ Peer.reset with presence := .self } : Peer).presence = .self := by decide

/-- The content of a record on both sides of its ranges. -/
theorem test_meets_inRange :
    record.inRange = true ∧
    [{ record with mode := 0 }, { record with mode := 7 }, { record with step := 3 }, { record with current := 13 },
      { record with target := 13 }, { record with clock := true, position := 2400 },
      { record with clock := false, position := 1 },
      { record with reports := [{ origin := 0, serial := 0, state := 3 }] },
      { record with claims := [{ serial := 0, route := 1, emergency := true }, { serial := 1, route := 1, emergency := false }] },
      { record with claims := [{ serial := 1, route := 0, emergency := true }, { serial := 1, route := 1, emergency := false }] }].map
      Record.inRange = List.replicate 10 false ∧
    ({ record with clock := true, position := 2399 } : Record).inRange = true := by decide

set_option maxRecDepth 20000 in
theorem test_meets_PeerEntry_record : goodRecord 1 record.encode = some record := by decide

theorem test_meets_BadRecordCount :
    Peer.reset.presence ≠ .self ∧ ({ Peer.reset with presence := .self } : Peer).presence = .self ∧
    Outcome.silent ≠ .bad := by decide

/-! ### Hypotheses met: the cycle unit -/

/-- A cycle unit under pattern 1 at a position. -/
def cycleAt (set : Bool) (position wait : Nat) : Cycle :=
  { Cycle.reset with set := set, position := position, active := 1, unsetWait := wait }

theorem test_meets_LocalPosition :
    ({ station .running 0 with cycle := cycleAt true 599 0 } : State).cycle.set = true ∧
    plan.patternOf 1 = some { ofs := 40, pREL := 200, pFO := .tab fun _ => 300 } ∧ 599 < plan.cOf 1 ∧ 40 < plan.cOf 1 ∧
    (cycleAt true 40 0).position = 40 ∧ (cycleAt true 39 0).position < 40 ∧ State.reset.cycle.set = false := by decide

theorem test_meets_PositionAtABoundary :
    (cycleAt true 599 0).active ≠ 0 ∧ 0 < 600 ∧ (cycleAt true 599 0).position < 600 ∧ Cycle.reset.active = 0 ∧
    State.reset.cycle.active = 0 ∧
    600 - 1 - (cycleAt true 299 0).position ≤ 600 / 2 ∧ 600 / 2 < 600 - 1 - (cycleAt true 298 0).position ∧
    (cycleAt false 0 598).unsetWait + 1 < 600 ∧ 600 ≤ (cycleAt false 0 599).unsetWait + 1 := by decide

/-- S2 and S4 PRESENT and RUNNING under pattern 2, this station under pattern 0 with the candidate confirmed
three times. -/
def diverged : State :=
  let e : Peer := { presence := .present, run := 3, miss := 0, record := some { record with active := 2 }
                    fresh := true, badCount := 0 }
  { station .running 0 with
    peers := ((Table.tab fun _ => Peer.reset).put 1 e).put 3 e
    cycle := { Cycle.reset with divCandidate := some 2, divCount := 3, startHold := 49 } }

theorem test_meets_CycleUnitCounts :
    diverged.plan = some plan ∧ diverged.cycle.startHold = 49 ∧ (cycleAt false 0 599).active ≠ 0 ∧
    (cycleAt false 0 599).set = false ∧ (cycleAt false 0 599).unsetWait + 1 = plan.cOf (cycleAt false 0 599).active ∧
    diverged.majority = some 2 ∧ diverged.cycle.divCandidate = some 2 ∧ diverged.cycle.divCount = 3 := by
  refine ⟨rfl, ?_⟩
  decide

/-- A candidate confirmed again, a new one, none; an adoption that every PRESENT peer shares, with the hold complete. -/
theorem test_meets_CycleSteps :
    diverged.majority = some 2 ∧ 3 ≤ diverged.cycle.divCount ∧
    ({ diverged with cycle := { diverged.cycle with divCount := 2 } } : State).cycle.divCount < 3 ∧
    ({ diverged with cycle := { diverged.cycle with divCandidate := none } } : State).cycle.divCandidate ≠ some 2 ∧
    (station .running 0).majority = none ∧ (station .running 0).allRequest 1 = true ∧
    diverged.allRequest 1 = true ∧ diverged.allRequest 2 = false ∧
    plan.patternOf (cycleAt true 599 0).active = some { ofs := 40, pREL := 200, pFO := .tab fun _ => 300 } := by decide

/-- Under a pattern, a boundary from the end of its start hold, pattern `q` requested and no peer PRESENT. -/
def agreeing (active q : PatternId) : State :=
  { station .running 0 with
    cycle := { Cycle.reset with active := active, requested := q, startHold := 49, set := !(active == 0) } }

/-- The agreement clause in full: from pattern 0 to 1, from 1 at its start to 2 of the other length, and from 1 to 0;
a cycle mark heard that jumps over three positions, one that jumps over two, one that is late. -/
theorem test_meets_Agreement :
    (agreeing 0 1).majority = none ∧ (agreeing 0 1).allRequest 1 = true ∧ (agreeing 0 1).cycle.startHold + 1 = 50 ∧
    (agreeing 0 1).cycle.active = 0 ∧ (agreeing 0 1).cycle.requested ≠ (agreeing 0 1).cycle.active ∧
    (((agreeing 0 1).cycleSteps plan false).1.active, ((agreeing 0 1).cycleSteps plan false).2) = (1, true) ∧
    (((agreeing 1 2).cycleSteps plan true).1.active, ((agreeing 1 2).cycleSteps plan true).2) = (1, false) ∧
    ((({ agreeing 1 2 with cycle := { (agreeing 1 2).cycle with position := 599 } } : State).cycleSteps plan true).1.active,
      (({ agreeing 1 2 with cycle := { (agreeing 1 2).cycle with position := 599 } } : State).cycleSteps plan true).2) =
      (2, true) ∧
    ((({ agreeing 1 0 with cycle := { (agreeing 1 0).cycle with position := 599 } } : State).cycleSteps plan true).1.active,
      (({ agreeing 1 0 with cycle := { (agreeing 1 0).cycle with position := 599 } } : State).cycleSteps plan true).2) =
      (0, false) ∧
    (cycleAt true 596 0).bigJump 600 true = true ∧ (cycleAt true 597 0).bigJump 600 true = false ∧
    (cycleAt true 299 0).bigJump 600 true = true ∧ (cycleAt true 298 0).bigJump 600 true = false := by decide

/-- One of two PRESENT peers is no majority, two of two are. -/
theorem test_meets_Majority :
    diverged.presentCount = 2 ∧ diverged.showing 2 = 2 ∧ (2 : PatternId) ≠ diverged.cycle.active ∧
    ({ diverged with peers := diverged.peers.put 3 { diverged.peers.nth 3 with record := some record } } : State).showing 2 = 1 ∧
    ({ diverged with peers := diverged.peers.put 3 { diverged.peers.nth 3 with record := some record } } : State).majority =
      none := by decide

/-- The local positions of pattern 1 that are its zero, release and force-off points, and one that is none. -/
theorem test_meets_CyclePoints :
    ({ station .running 0 with cycle := cycleAt true 40 0 } : State).cyclePoint plan = some .zero ∧
    ({ station .running 0 with cycle := cycleAt true 240 0 } : State).cyclePoint plan = some .release ∧
    ({ station .running 0 with cycle := cycleAt true 340 0 } : State).cyclePoint plan = some (.forceOff 1) ∧
    ({ station .running 0 with cycle := cycleAt true 341 0 } : State).cyclePoint plan = none ∧
    ({ station .running 0 with cycle := cycleAt false 0 0 } : State).cycle.set = false := by decide

theorem test_meets_PatternLines :
    (station .running 0).ctrl.mode ≠ .dark ∧ (station .running 0).supplyOk = true ∧ 3124 < 3125 ∧
    (station .running 0).panel.pairValue = (station .running 0).cycle.pair ∧
    (dark false none).supplyOk = false ∧ (dark false none).panel.pairValue = (dark false none).cycle.pair ∧
    (dark true none).supplyOk = true ∧ (dark true none).ctrl.mode = .dark ∧
    125000 ≤ ({ Cycle.reset with pair := 2, pairTime := 125000 } : Cycle).pairTime ∧
    ({ Cycle.reset with pair := 2, pairTime := 125000 } : Cycle).pair ≠
      ({ Cycle.reset with pair := 2, pairTime := 125000 } : Cycle).requested := by decide

/-! ### Hypotheses met: the signal groups -/

/-- RUNNING with G1, G2 and G3 as given and every other group in RED. -/
def withGroups (a b c : Group) : State :=
  { station .running 0 with
    groups := .tab fun g => if g = 0 then a else if g = 1 then b else if g = 2 then c
      else { Group.reset with state := .red } }

/-- In RED for 2.0 s, open pending. -/
def opening : Group := { Group.reset with state := .red, held := .open, time := 125000 }

/-- In RED for 2.0 s. -/
def waiting : Group := { Group.reset with state := .red, time := 125000 }

theorem test_meets_OpenGrant_prepare :
    (withGroups opening waiting waiting).grantable 0 = true ∧ 0 < ((withGroups opening waiting waiting).groupPlan 0).tPRE :=
  by decide

theorem test_meets_OpenGrant_green :
    (withGroups waiting opening waiting).grantable 1 = true ∧ ((withGroups waiting opening waiting).groupPlan 1).tPRE = 0 :=
  by decide

/-- Both of two conflicting groups are clear to open; the lower one goes first. -/
theorem test_meets_OpenGrant_lower :
    (withGroups opening opening waiting).clearToOpen 1 = true ∧ (withGroups opening opening waiting).grantable 1 = false :=
  by decide

theorem test_meets_PrepareEnd :
    ((withGroups { Group.reset with state := .prepare, time := 93750 } waiting waiting).groups.nth 0).state = .prepare ∧
    6250 * ((withGroups { Group.reset with state := .prepare, time := 93750 } waiting waiting).groupPlan 0).tPRE ≤
      ((withGroups { Group.reset with state := .prepare, time := 93750 } waiting waiting).groups.nth 0).time := by decide

/-- GREEN for 5.0 s. -/
def green (held : Held) : Group := { Group.reset with state := .green, held := held, time := 312500 }

theorem test_meets_MinGreenEnd :
    ((withGroups (green .close) waiting waiting).groups.nth 0).minDone = false ∧
    6250 * ((withGroups (green .close) waiting waiting).groupPlan 0).tMIN ≤
      ((withGroups (green .close) waiting waiting).groups.nth 0).time ∧
    ((withGroups (green .close) waiting waiting).groups.nth 0).held = .close ∧
    ((withGroups (green .none) waiting waiting).groups.nth 0).held ≠ .close := by decide

theorem test_meets_GapOut :
    (withGroups (green .none) waiting waiting).gapTimed 0 = true ∧
    ((withGroups (green .none) waiting waiting).groups.nth 0).gapped = false ∧
    ((withGroups (green .none) waiting waiting).groups.nth 0).gap = 0 ∧
    (withGroups (green .none) waiting waiting).extended 0 = false := by decide

/-- A gapped-out GREEN group whose max remaining time has reached 0.0. -/
def maxAt (minDone : Bool) : Group := { green .none with maxRunning := true, gapped := true, minDone := minDone }

theorem test_meets_MaxDone :
    ((withGroups (maxAt true) waiting waiting).groups.nth 0).maxRunning = true ∧
    ((withGroups (maxAt true) waiting waiting).groups.nth 0).maxDone = false ∧
    ((withGroups (maxAt true) waiting waiting).groups.nth 0).maxLeft = 0 ∧
    ((withGroups (maxAt true) waiting waiting).groups.nth 0).minDone = true ∧
    ((withGroups (maxAt false) waiting waiting).groups.nth 0).minDone = false := by decide

/-- Where tMIN and the max timer end at one moment, min-done is the one event that is due (R73). -/
theorem test_min_done_before_max_done :
    (withGroups (maxAt false) waiting waiting).dueGroup 0 = [.minGreenEnd 0] ∧
    (withGroups (maxAt true) waiting waiting).dueGroup 0 = [.maxDone 0] := by decide

theorem test_meets_ClearingEnd :
    ((withGroups { Group.reset with state := .clearing, time := 187500 } waiting waiting).groups.nth 0).state = .clearing ∧
    6250 * ((withGroups { Group.reset with state := .clearing, time := 187500 } waiting waiting).groupPlan 0).tCLR ≤
      ((withGroups { Group.reset with state := .clearing, time := 187500 } waiting waiting).groups.nth 0).time := by decide

/-! ### Hypotheses met: detectors and claims -/

/-- A detector whose initial level is taken: its raw input and filtered level, held for tDF. -/
def detAt (raw level : Bool) : Det := { Det.reset with raw := raw, level := level, initial := true, filt := 3125 }

/-- RUNNING with one detector as given. -/
def withDet (d : LocalId) (x : Det) : State :=
  { station .running 0 with dets := (Table.tab fun _ => Det.reset).put d x }

theorem test_meets_DetectorFilter :
    (!false) ≠ ((station .running 0).dets.nth 0).raw ∧ (station .running 0).localDef 0 = some (detector .presence) ∧
    ((withDet 0 { Det.reset with raw := true, filt := 3125 }).dets.nth 0).initial = false ∧
    625 * (detector .presence).tDF ≤ ((withDet 0 { Det.reset with raw := true, filt := 3125 }).dets.nth 0).filt := by
  decide

/-- A remote detector that takes D1 of S2, and calls and extends G2. -/
def remoteOfS2 : RemoteDef := { station := 1, input := 0, calls := 2, extends_ := 2 }

/-- The station with D25 so defined, its peer S2 in a presence state with this fault flag. -/
def withRemote (p : Presence) (fault : Bool) : State :=
  { peerAt p 3 0 with
    plan := some { plan with remote := .tab fun r => if r = 0 then some remoteOfS2 else none }
    peers := (peerAt p 3 0).peers.upd 1 fun e =>
      { e with record := some { record with occupancy := 1, faults := if fault then 1 else 0 } } }

/-- The value of a remote detector: of a PRESENT source without and with its fault flag, of another source, unused. -/
theorem test_meets_remoteValue :
    [(withRemote .present false).remoteValue 0, (withRemote .present true).remoteValue 0, (withRemote .lost false).remoteValue 0,
      (withRemote .present false).remoteValue 1] = [.normal true, .lost, .lost, .unused] := by decide

/-- Occupancy, fault, calls and extension by mode: PRESENCE occupied, PULSE with its 0.5 s running and ended, BUTTON held
and in fault; a group called by its memory, by a remote detector and by none. -/
theorem test_meets_calls :
    ((withDet 0 (detAt true true)).occupied 0, (withDet 0 (detAt true true)).callsLocking 0 0,
      (withDet 0 (detAt true true)).extended 0) = (true, true, true) ∧
    ((withDet 1 { detAt true true with pulse := some 7 }).occupied 1, (withDet 1 (detAt true true)).occupied 1) = (true, false) ∧
    ((withDet 2 (detAt true true)).callsLocking 2 0,
      (withDet 2 { detAt true true with fault := .stuck }).callsLocking 2 0) = (false, true) ∧
    ({ station .running 0 with callers := (Table.tab fun _ => 0).put 0 1 } : State).hasCall 0 = true ∧
    ({ withRemote .present false with remotes := (Table.tab fun _ => .unused).put 0 .lost } : State).hasCall 1 = true ∧
    ({ withRemote .present false with remotes := (Table.tab fun _ => .unused).put 0 .lost } : State).extended 1 = true ∧
    (station .running 0).hasCall 0 = false ∧ (station .running 0).gapTimed 0 = true := by decide

/-- Each of the five modes meets the hypotheses of its rising edge. -/
theorem test_meets_RisingEdges :
    ∀ d : Fin 5,
      (withDet ⟨d.val, by omega⟩ (detAt true false)).localDef ⟨d.val, by omega⟩ =
        some (detector ([DetMode.presence, .pulse, .button, .claim 0 .emergency, .checkout 0].getD d.val .presence)) ∧
      625 * (detector .presence).tDF ≤
        ((withDet ⟨d.val, by omega⟩ (detAt true false)).dets.nth ⟨d.val, by omega⟩).filt ∧
      ((withDet ⟨d.val, by omega⟩ (detAt true false)).dets.nth ⟨d.val, by omega⟩).initial = true ∧
      ((withDet ⟨d.val, by omega⟩ (detAt true false)).dets.nth ⟨d.val, by omega⟩).level = false ∧
      ((withDet ⟨d.val, by omega⟩ (detAt true false)).dets.nth ⟨d.val, by omega⟩).raw = true := by decide

/-- An own claim of route 1. -/
def ownClaim (serial : Fin 16) : OwnClaim :=
  { serial := serial, route := 0, priority := .emergency, life := 7500000, clearedBy := 0 }

/-- The claim list is short and free of the route, or refuses the edge. -/
theorem test_meets_ClaimEdge :
    State.reset.claims.own.length < 2 ∧ (∀ o ∈ State.reset.claims.own, o.route ≠ 0) ∧ 2 ≤ [ownClaim 0, ownClaim 1].length ∧
    (∃ o ∈ [ownClaim 0], o.route = 0) := by decide

/-- A claim table entry of station S2 for route 1. -/
def entry (st : ClaimState) (remaining : Nat) : ClaimEntry :=
  { origin := 1, serial := 5, route := 0, priority := .emergency, stage := 1, remaining := remaining, arrived := false
    life := 7500000, hold := none, state := st, clearedOrder := none, miss := 0 }

/-- Own claims that the plan leads to no stage, that the table holds, and that enter it. -/
theorem test_meets_OfferOwn :
    (plan.routes.nth ({ ownClaim 0 with route := 1 } : OwnClaim).route).stage = none ∧
    (plan.routes.nth (ownClaim 0).route).stage = some 1 ∧
    (∃ e ∈ [{ entry .ready 0 with origin := 2 }], e.origin = plan.station ∧ e.serial = (ownClaim 5).serial) ∧
    (∀ e ∈ State.reset.claims.table, ¬ (e.origin = plan.station ∧ e.serial = (ownClaim 0).serial)) := by decide

/-- Seven EMERGENCY entries and a waiting TRANSIT one, and eight EMERGENCY ones. -/
def fullTable (p : Priority) : List ClaimEntry :=
  List.replicate 7 (entry .waiting 9) ++ [{ entry .waiting 9 with priority := p }]

theorem test_meets_FullTable :
    8 ≤ (fullTable .transit).length ∧ (entry .waiting 9).priority = .emergency ∧
    fullTable .transit = List.replicate 7 (entry .waiting 9) ++ { entry .waiting 9 with priority := .transit } :: [] ∧
    ({ entry .waiting 9 with priority := .transit } : ClaimEntry).state ≠ .serving ∧
    8 ≤ (fullTable .emergency).length ∧
    (∀ y ∈ fullTable .emergency, ¬ (y.priority = .transit ∧ y.state ≠ .serving)) := by decide

theorem test_meets_FallingEdge :
    ((withDet 0 (detAt false true)).dets.nth 0).initial = true ∧ ((withDet 0 (detAt false true)).dets.nth 0).level = true ∧
    ((withDet 0 (detAt false true)).dets.nth 0).raw = false ∧
    625 * (detector .presence).tDF ≤ ((withDet 0 (detAt false true)).dets.nth 0).filt := by decide

theorem test_meets_DetectorTimesEnd :
    ((withDet 1 { detAt true true with pulse := some 31250 }).dets.nth 1).pulse = some 31250 ∧
    ((withDet 1 { detAt true true with presence := some 37500000 }).dets.nth 1).fault = .normal ∧
    3750000 * (detector .pulse).tMP ≤ 37500000 ∧
    ((withDet 1 { detAt false false with silence := some 5400000000 }).dets.nth 1).silence = some 5400000000 ∧
    ((withDet 1 { detAt false false with silence := some 5400000000 }).dets.nth 1).level = false ∧
    225000000 * (detector .pulse).tMSL ≤ 5400000000 ∧ ((withDet 1 (detAt true true)).dets.nth 1).level = true := by
  decide

/-- RUNNING with this claim table. -/
def withTable (t : List ClaimEntry) : State := (station .running 0).withClaimTable t

/-- The last of two entries is the one concerned: at LEAD, at 0, SERVING at 0. -/
theorem test_meets_ClaimReadiness :
    (withTable [{ entry .waiting 9 with serial := 4 }, entry .waiting 625000]).claims.table =
      [{ entry .waiting 9 with serial := 4 }] ++ entry .waiting 625000 :: [] ∧
    (∀ x ∈ [{ entry .waiting 9 with serial := 4 }],
      ¬ (x.origin = (entry .waiting 625000).origin ∧ x.serial = (entry .waiting 625000).serial)) ∧
    (entry .waiting 625000).remaining ≤ (withTable []).leadTicks (entry .waiting 625000).route ∧
    (entry .waiting 0).remaining = 0 ∧ (entry .waiting 0).arrived = false ∧ (entry .ready 0).state ≠ .waiting ∧
    (entry .ready 0).state ≠ .serving ∧ (entry .serving 0).state = .serving := by decide

/-- No READY entry that is served; a first EMERGENCY one; TRANSIT ones alone; a service that a READY entry joins, and
one that an entry of another priority, stage or state does not. -/
theorem test_meets_Arbitration :
    (∀ e ∈ [entry .waiting 9], ¬ (e.state = .ready ∧ served .running false e.priority = true)) ∧
    (entry .ready 0).state = .ready ∧ served .running false (entry .ready 0).priority = true ∧
    (∀ x ∈ [{ entry .ready 0 with priority := .transit }],
      ¬ (x.state = .ready ∧ served .running false x.priority = true ∧ x.priority = .emergency)) ∧
    ((entry .ready 0).priority = .emergency ∨ true = false) ∧ (entry .waiting 0).state ≠ .ready ∧
    served .running true .transit = false ∧ (entry .ready 0).stage ≠ 0 ∧
    ({ entry .ready 0 with priority := .transit } : ClaimEntry).priority = .transit := by decide

/-- The service stage kept, given, another, ended, in each state of the sequencer; with a plan and without. -/
theorem test_meets_Service :
    (station .running 0).seq.service = none ∧ some 1 ≠ (station .running 0).seq.service ∧
    ({ Seq.reset with st := .dwell 1, service := some 1 } : Seq).service ≠ none ∧
    some 0 ≠ ({ Seq.reset with st := .dwell 1, service := some 1 } : Seq).service ∧
    (station .running 0).seq.st = .idle ∧ ({ Seq.reset with st := .dwell 1 } : Seq).st = .dwell 1 ∧
    (cycleAt true 0 0).active ≠ 0 ∧ (station .running 0).cycle.active = 0 ∧ State.reset.plan = none ∧
    (station .running 0).leadTicks 0 = 625000 ∧ (station .running 0).holdTicks .emergency = 625000 ∧
    (station .running 0).holdTicks .transit = 312500 := by decide

theorem test_meets_ClaimsEnd :
    (withTable [{ entry .serving 0 with hold := some 0 }]).claims.table =
      [] ++ { entry .serving 0 with hold := some 0 } :: [] ∧
    ({ entry .serving 0 with hold := some 0 } : ClaimEntry).hold = some 0 ∧
    ({ entry .ready 0 with life := 0 } : ClaimEntry).life = 0 ∧ (entry .waiting 0).state = .waiting := by decide

/-- S2 is PRESENT with a new record that carries serials 5 and 6 alone. -/
theorem test_meets_Withdrawal :
    (peerAt .present 3 0).plan = some plan ∧ (4 : Fin 16) ≠ plan.station ∧
    (peerAt .present 3 0).presentRecord 1 = some record ∧ ((peerAt .present 3 0).peers.nth 1).fresh = true ∧
    (∀ c ∈ record.claims, c.serial.toFin ≠ (4 : Fin 16)) ∧
    ({ entry .serving 0 with serial := 4, miss := 2 } : ClaimEntry).miss = 2 := by
  refine ⟨rfl, ?_⟩
  decide

/-- A boundary of the claim unit: places of CLEARED entries, an entry of the own station, of a station that is not
PRESENT, of one with no new record, carried and missing. -/
theorem test_meets_ClaimsBoundary :
    ({ Claims.reset with clearPlace := some 0 } : Claims).place = 0 ∧ State.reset.claims.clearPlace = none ∧
    ({ entry .cleared 0 with clearedOrder := some 3 } : ClaimEntry).clearedOrder = some 3 ∧
    ({ entry .ready 0 with origin := 2 } : ClaimEntry).origin = plan.station ∧
    (station .running 0).presentRecord (entry .ready 0).origin = none ∧
    (peerAt .present 3 0).presentRecord (entry .ready 0).origin = some record ∧
    ((peerAt .present 3 0).peers.nth (entry .ready 0).origin).fresh = true ∧
    (∃ c ∈ record.claims, c.serial.toFin = (entry .ready 0).serial) ∧
    (∀ c ∈ record.claims, c.serial.toFin ≠ ({ entry .ready 0 with serial := 4 } : ClaimEntry).serial) := by decide

/-- A claim of station S2 on route 1, which leads from there to here and to a stage; one of a station off the route;
one that the table holds. -/
theorem test_meets_OfferPeer :
    plan.distOf 0 plan.station = some 30 ∧ plan.distOf 0 1 = some 0 ∧ 0 ≤ 30 ∧ (plan.routes.nth 0).stage = some 1 ∧
    (∀ x ∈ State.reset.claims.table, ¬ (x.origin = (1 : StationId) ∧ x.serial = 5)) ∧
    plan.distOf 0 4 = none ∧ (∃ x ∈ [entry .ready 0], x.origin = 1 ∧ x.serial = 5) := by decide

/-- Every station but S3 stands at distance 0 of every route, and LEAD is as long as the way to S3. -/
def nearPlan : Plan :=
  { plan with dist := .tab fun _ => .tab fun k => if k = 2 then some 30 else some 0, lead := .tab fun _ => 30 }

/-- A full table in which (S2, 5) stands READY as a TRANSIT claim: S1 raises an EMERGENCY claim that displaces it, and
S2 shows it EMERGENCY. -/
def displacing : State :=
  { peerAt .present 3 0 with
    plan := some nearPlan
    peers := ((peerAt .present 3 0).peers.put 0
      { presence := .present, run := 3, miss := 0, fresh := true, badCount := 0
        record := some { record with station := 0, claims := [{ serial := 9, route := 0, emergency := true }] } })
    claims := { Claims.reset with
      table := ([0, 1, 2, 3, 4, 5].map fun n => { entry .cleared 0 with origin := 2, serial := n, clearedOrder := some 0 }) ++
        [{ entry .waiting 9 with serial := 6, priority := .transit },
         { entry .ready 0 with priority := .transit }] } }

/-- Step 5 of a boundary enters a READY entry: a published claim, an own one, and one that stood READY before, which
arbitration then serves (R147); and it enters none. -/
theorem test_meets_EntryReady :
    ({ peerAt .present 3 0 with plan := some nearPlan } : State).entryReady nearPlan = true ∧
    ({ station .running 0 with claims := { Claims.reset with own := [ownClaim 0] } } : State).entryReady plan = true ∧
    (station .running 0).entryReady plan = false ∧ (peerAt .present 3 0).entryReady plan = false ∧
    displacing.entryReady nearPlan = true ∧
    (displacing.claims.table.map fun e => (e.serial, e.state)).getLast? = some (5, .ready) ∧
    ((displacing.claimsBoundary nearPlan).claims.table.map fun e => (e.serial, e.priority, e.state)).drop 6 =
      [(9, .emergency, .serving), (5, .emergency, .serving)] ∧
    servingLost [entry .serving 0] [entry .ready 0] = true ∧ servingLost [entry .serving 0] [entry .serving 9] = false := by
  decide +kernel

/-- D5 clears the oldest SERVING entry of route 1, else the oldest that is not EXPIRED, unless all are. -/
theorem test_meets_CheckOutEdge :
    (detector (.checkout 0)).mode = .checkout (entry .serving 0).route ∧
    [entry .expired 0, entry .serving 0] = [entry .expired 0] ++ entry .serving 0 :: [] ∧
    (∀ x ∈ [entry .expired 0], ¬ (x.route = 0 ∧ x.state = .serving)) ∧
    (∀ x ∈ [entry .expired 0, entry .ready 0], ¬ (x.route = 0 ∧ x.state = .serving)) ∧
    (∀ x ∈ [entry .expired 0, entry .cleared 0], ¬ (x.route = 0 ∧ x.state = .serving)) ∧
    (∀ x ∈ [entry .expired 0], x.route = 0 → x.state = .expired) := by decide

/-! ### Hypotheses met: lamps, modes and panel -/

/-- Channel `c` in a mode as given. -/
def withChan (mode : Mode) (c : ChanId) (x : Chan) : State :=
  { station mode 0 with
    lamps := { Lamps.reset with channels := (Table.tab fun _ => Chan.reset).put c x } }

/-- A channel sensed on. -/
def lit : Chan := { Chan.reset with sense := { raw := true, time := 625, level := some true } }

/-- Judged channels that agree, dark and lit, a judged one that does not, and one that is not judged. -/
theorem test_meets_Agree :
    Chan.reset.settle = none ∧ Chan.reset.command.expected true = false ∧ Chan.reset.sensed = false ∧
    ({ lit with command := .on } : Chan).command.expected true = true ∧ lit.sensed = true ∧
    lit.command.expected true ≠ lit.sensed ∧ ({ lit with command := .flash } : Chan).command.expected false = false ∧
    ({ Chan.reset with settle := some 0 } : Chan).settle ≠ none := by decide

/-- CHECK with the self-check running. -/
def selfChecking (judging : Bool) (time : Nat) : State :=
  { station .check 0 with
    lamps := { Lamps.reset with selfCheck := .running, selfJudging := judging, selfTime := time } }

theorem test_meets_SensesSettlingAndPhase :
    (station .running 0).selfWatching = false ∧ (station .running 0).ctrl.mode ≠ .dark ∧ 624 < 625 ∧
    State.reset.ctrl.mode = .dark ∧ (selfChecking true 0).selfWatching = true ∧
    ({ withChan .check 3 lit with lamps := { (withChan .check 3 lit).lamps with selfCheck := .running } } : State).sensed 3 =
      true ∧
    ((withChan .running 3 { Chan.reset with settle := some 3125 }).lamps.channels.nth 3).settle = some 3125 ∧
    ({ Lamps.reset with flashCount := 4 } : Lamps).flashCount = 4 := by decide

/-- Channel 1, of G1's red, takes its command ON; the unused G16's stays off. Groups of each kind, a station without a
plan, and a sign in CHECK. -/
theorem test_meets_ChannelCommands :
    (station .running 0).commandOf 0 ≠ ((station .running 0).lamps.channels.nth 0).command ∧
    (station .running 0).commandOf 45 = ((station .running 0).lamps.channels.nth 45).command ∧
    (plan.groups.nth 0).kind = .vehicle ∧ (plan.groups.nth 2).kind = .walk ∧ (plan.groups.nth 15).kind = .unused ∧
    State.reset.plan = none ∧ (station .check 0).ctrl.mode = .check := by decide

/-- The greens of G1 and G2 sensed on together for tCF. -/
def conflicting : State :=
  { station .running 0 with
    lamps := { Lamps.reset with
      channels := ((Table.tab fun _ => Chan.reset).put 2 lit).put 5 lit
      pairs := .tab fun _ => .tab fun _ => 12500 } }

theorem test_meets_Conflict :
    (0 : GroupId) < 1 ∧ conflicting.pairLit 0 1 = true ∧ 12500 ≤ (conflicting.lamps.pairs.nth 0).nth 1 ∧
    conflicting.lamps.conflict = none ∧
    ({ conflicting.lamps with conflict := some (.greenInFlash 0) } : Lamps).conflict ≠ none := by decide

/-- The same with G1's red out for tRO, so that both latches are due at one moment; and with no red out. -/
def bothDue : State := { conflicting with lamps := { conflicting.lamps with reds := .tab fun _ => 31250 } }

theorem test_meets_ConflictAndRedOut :
    bothDue.lamps.conflict = none ∧ bothDue.lamps.redOut = none ∧
    (∃ g, bothDue.redDark g = true ∧ 31250 ≤ bothDue.lamps.reds.nth g) ∧
    (∃ x y, x < y ∧ bothDue.pairLit x y = true ∧ 12500 ≤ (bothDue.lamps.pairs.nth x).nth y) ∧
    (∀ g, conflicting.redDark g = true → conflicting.lamps.reds.nth g < 31250) ∧
    (∀ x y, x < y → (station .running 0).pairLit x y = true →
      ((station .running 0).lamps.pairs.nth x).nth y < 12500) :=
  ⟨by decide, by decide, ⟨0, by decide⟩, ⟨0, 1, by decide⟩, by decide, by decide +kernel⟩

theorem test_meets_GreenInFlash :
    (withChan .panelFlash 2 lit).greenLit 0 = true ∧
    12500 ≤ ({ Lamps.reset with greens := .tab fun _ => 12500 } : Lamps).greens.nth 0 := by decide

theorem test_meets_RedOut :
    (station .running 0).redDark 0 = true ∧
    31250 ≤ ({ Lamps.reset with reds := .tab fun _ => 31250 } : Lamps).reds.nth 0 := by decide

/-- A fault event outside FAULT_FLASH with no reason held, and one in FAULT_FLASH; pairs and greens that are not lit. -/
theorem test_meets_FirstFault :
    conflicting.ctrl.mode ≠ .faultFlash ∧
    conflicting.ctrl.reasons = { conflict := false, redOut := false, selfCheck := false, plan := false } ∧
    (withChan .faultFlash 2 lit).greenLit 0 = true ∧ (withChan .faultFlash 2 lit).ctrl.mode = .faultFlash ∧
    [(0 : GroupId)] ≠ [] ∧ [((0 : GroupId), (1 : GroupId))] ≠ [] ∧
    bothDue.pairLit 0 1 = true ∧ bothDue.pairLit 0 2 = false ∧ (withChan .running 2 lit).greenLit 0 = false ∧
    (withChan .panelFlash 2 lit).redDark 0 = false := by decide

theorem test_meets_ChannelChecks :
    31250 ≤ ((withChan .running 3 { Chan.reset with unTime := 31250 }).lamps.channels.nth 3).unTime ∧
    ((withChan .running 3 { Chan.reset with unTime := 31250 }).lamps.channels.nth 3).unLive = false ∧
    62500 ≤ ((withChan .running 3 { Chan.reset with loTime := 62500 }).lamps.channels.nth 3).loTime ∧
    ((withChan .running 3 { Chan.reset with loTime := 62500 }).lamps.channels.nth 3).loLive = false := by decide

theorem test_meets_SelfCheck :
    (selfChecking false 3125).lamps.selfJudging = false ∧ 3125 ≤ (selfChecking false 3125).lamps.selfTime ∧
    (∀ c, (selfChecking false 3125).sensed c = false) ∧ (withChan .check 3 lit).sensed 3 = true ∧
    (selfChecking true 62500).ctrl.mode = .check ∧ (selfChecking true 62500).lamps.selfCheck = .running ∧
    (selfChecking true 62500).lamps.selfJudging = true ∧ 62500 ≤ (selfChecking true 62500).lamps.selfTime ∧
    (∀ c, (selfChecking true 62500).sensed c = false) := by decide

/-- The mode timer at `n`. -/
def timed (mode : Mode) (n : Nat) : State :=
  { station mode 0 with ctrl := { Ctrl.reset with mode := mode, timer := some n } }

theorem test_meets_ModeTimer :
    (timed .startFlash 250000).ctrl.timer = some 250000 ∧ (timed .startFlash 250000).flashRequest = false ∧
    6250 * plan.tSF ≤ 250000 ∧ 6250 * plan.tAR ≤ 187500 ∧ (station .running 0).mainStage = some 0 := by decide

/-- A change from stage S1 to S2 in the form asked for. -/
def changing (committed : Bool) (replacement : Option StageId) : Change :=
  { fromStage := some 0, toStage := 1, closing := 1, opening := 2, committed := committed, replacement := replacement }

/-- RUNNING in a sequencer state with G1 and G2 as given. -/
def sequencing (st : SeqState) (a b : Group) : State :=
  { withGroups a b waiting with seq := { Seq.reset with st := st } }

/-- A stage at which every condition of its end holds. -/
def ended : Group := { green .none with minDone := true, gapped := true }

theorem test_meets_Sequencer :
    (sequencing .idle waiting waiting).seq.st = .idle ∧ (changing false none).committed = false ∧
    (∃ g, BitSet.has (changing false none).opening g = true ∧
      (((sequencing (.change (changing false none)) waiting (green .none)).groups.nth g).state = .prepare ∨
       ((sequencing (.change (changing false none)) waiting (green .none)).groups.nth g).state = .green)) ∧
    (∀ g, BitSet.has (changing false none).opening g = true →
      ((sequencing (.change (changing false none)) waiting waiting).groups.nth g).state ≠ .prepare ∧
      ((sequencing (.change (changing false none)) waiting waiting).groups.nth g).state ≠ .green) ∧
    (sequencing (.change (changing true none)) waiting (green .none)).changeComplete (changing true none) = true ∧
    (sequencing (.change (changing true none)) waiting waiting).changeComplete (changing true none) = false ∧
    (changing true (some 0)).replacement = some 0 ∧ (0 : StageId) ≠ (changing true (some 0)).toStage :=
  ⟨by decide, by decide, ⟨1, by decide⟩, by decide⟩

/-- In DWELL of S1, which may end, with a locking call at G2: S2 is selected; and with none. -/
theorem test_meets_Selection :
    (sequencing (.dwell 0) ended waiting).mayEnd 0 = true ∧
    ({ sequencing (.dwell 0) ended waiting with callers := (Table.tab fun _ => 0).put 1 1 } : State).selectTarget 0 =
      some 1 ∧
    (sequencing (.dwell 0) ended waiting).selectTarget 0 = none ∧
    (sequencing (.dwell 0) waiting waiting).mayEnd 0 = false ∧
    (sequencing (.dwell 0) ended waiting).sequence = [] ++ 0 :: [1] ∧
    (2 : StageId) ∉ (sequencing (.dwell 0) ended waiting).sequence := by decide

/-- In coordinated operation at a corridor position, G2 in RED: the local position is 40 less. -/
def coordinated (position : Nat) : State :=
  { withGroups (green .none) waiting waiting with cycle := cycleAt true position 0 }

/-- The window of S2 is from pREL 200 to pFO 300 less the 5.0 s minimum green of G2. -/
theorem test_meets_EligibleWindow :
    (coordinated 240).coordinatedOp = true ∧ (coordinated 240).mainStage ≠ some 1 ∧ (coordinated 240).tMINOf 1 = 50 ∧
    (coordinated 239).localPosition + 1 = 200 ∧ (coordinated 240).localPosition = 200 ∧
    (coordinated 289).localPosition + 50 + 1 = 300 ∧ (coordinated 290).localPosition + 50 = 300 ∧
    [239, 240, 289, 290].map (fun n => (coordinated n).eligible 1) = [false, true, true, false] ∧
    (coordinated 239).eligible 0 = true ∧ (station .running 0).coordinatedOp = false ∧
    (withGroups waiting (green .none) waiting).tMINOf 1 = 0 := by decide

theorem test_meets_GroupRequests :
    waiting.held = .none ∧ waiting.state = .red ∧ (green .close).held = .close ∧ (green .close).state = .green ∧
    (green .none).minDone = false ∧ ended.minDone = true ∧ ended.held = .none ∧ opening.held = .open := by decide

/-- The rows of R65 and R70 without effect: NONE in GREEN and RED, OPEN in RED, CLOSE in GREEN, FLASHING and DARK. -/
theorem test_meets_GroupRequests_none :
    (green .none).held = .none ∧ (green .none).state = .green ∧ opening.held = .open ∧ opening.state = .red ∧
    { Group.reset with state := .flashing }.state = .flashing ∧ Group.reset.state = .dark ∧
    (green .none).openRequest = green .none ∧ opening.openRequest = opening ∧ waiting.closeRequest = waiting ∧
    (green .close).closeRequest = green .close ∧ Group.reset.openRequest = Group.reset ∧
    Group.reset.closeRequest = Group.reset := by decide

/-- What follows an event: a grant, a step of the sequencer, and neither; a flash entry wait that is over; a GREEN
VEHICLE group. -/
theorem test_meets_WhatFollows :
    (withGroups opening waiting waiting).grantStep.isSome = true ∧
    (sequencing (.change (changing true none)) waiting (green .none)).grantStep.isNone = true ∧
    (sequencing (.change (changing true none)) waiting (green .none)).seqStep.isSome = true ∧
    (station .running 0).grantStep.isNone = true ∧ (station .running 0).seqStep.isNone = true ∧
    (withGroups opening opening waiting).clearToOpen 0 = true ∧
    (∀ g, (station .running 0).clearToOpen g = false) ∧
    (station .running 0).ctrl.mode = .running ∧ (station .running 0).movingCount = 0 ∧
    ((withGroups (green .none) waiting waiting).groups.nth 0).state = .green ∧
    ((withGroups (green .none) waiting waiting).groupPlan 0).kind = .vehicle := by decide

/-- A filter with this level taken. -/
def panelAt (level : Bool) : Filter := { raw := level, time := 3125, level := some level }

theorem test_meets_FlashRequest :
    (station .running 0).supplyOk = true ∧ 3124 < 3125 ∧
    (station .running 0).flashRequest = false ∧ (station .running 0).movingCount = 0 ∧
    (withGroups { Group.reset with state := .prepare } waiting waiting).movingCount ≠ 0 ∧
    ({ station .panelFlash 0 with panel := { Panel.reset with flash := panelAt true } } : State).flashRequest = true ∧
    (dark false none).supplyOk = false ∧ (dark true none).supplyOk = true ∧ (dark true none).ctrl.mode = .dark ∧
    (station .running 0).ctrl.mode ≠ .dark ∧ (station .running 0).flashRequest ≠ true := by decide

/-- The fault flash from RUNNING: a group of the plan is FLASHING, the unused G16 stands; without a plan G16 flashes. -/
theorem test_meets_ModeForce :
    ((station .running 0).groupPlan 0).kind ≠ .unused ∧ ((station .running 0).groupPlan 15).kind = .unused ∧
    (station .running 0).plan ≠ none ∧ State.reset.plan = none ∧ Mode.faultFlash.force ≠ Mode.running.force ∧
    Mode.allRed.force = Mode.running.force ∧ (.faultFlash : Mode) ≠ .running ∧
    ((((station .running 0).enterMode .faultFlash).groups.nth 0).state,
      (((station .running 0).enterMode .faultFlash).groups.nth 15).state,
      ((State.reset.enterMode .faultFlash).groups.nth 15).state) = (.flashing, .red, .flashing) := by decide +kernel

theorem test_meets_PanelFaultReset :
    (station .faultFlash 0).supplyOk = true ∧
    ({ station .faultFlash 0 with panel := { Panel.reset with faultReset := panelAt false } } : State).panel.faultReset.level =
      some false ∧
    (station .faultFlash 0).ctrl.reasons.plan = false ∧ (station .running 0).ctrl.mode ≠ .faultFlash ∧
    (station .running 0).ctrl.wait = false ∧ (withDet 0 (detAt true true)).localDef 0 = some (detector .presence) ∧
    ((withDet 0 (detAt true true)).dets.nth 0).initial = true ∧ (detector .pulse).tMSL ≠ 0 := by decide

/-- The forms that are no press, an input that is not judged, and a press in RUNNING with the flash entry wait in
force while a group moves. -/
theorem test_meets_PanelFaultReset_noPress :
    (dark false none).supplyOk = false ∧ (dark true none).supplyOk = true ∧ 3124 < 3125 ∧
    (dark true none).ctrl.mode = .dark ∧ (station .running 0).panel.faultReset.level ≠ some false ∧
    (station .running 0).localDef 9 = none ∧ ((station .running 0).dets.nth 0).initial = false ∧
    ({ withGroups { Group.reset with state := .prepare } waiting waiting with
        ctrl := { Ctrl.reset with mode := .running, wait := true } } : State).ctrl.wait = true ∧
    ({ withGroups { Group.reset with state := .prepare } waiting waiting with
        ctrl := { Ctrl.reset with mode := .running, wait := true } } : State).movingCount ≠ 0 := by decide

theorem test_meets_ManualAndAdvance :
    (station .running 0).supplyOk = true ∧ (station .running 0).manualFlag ≠ true ∧
    (station .running 0).manualFlag = false ∧
    ({ station .running 0 with panel := { Panel.reset with advance := panelAt false } } : State).panel.advance.level =
      some false ∧
    (station .running 0).panel.advance.level ≠ some false ∧
    ({ station .running 0 with panel := { Panel.reset with manual := panelAt true } } : State).manualFlag = true ∧
    (station .running 0).ctrl.mode ≠ .dark ∧ State.reset.ctrl.mode = .dark ∧ (dark false none).supplyOk = false ∧
    (station .running 0).seq.st = .idle ∧ nextStage [0] 0 = some 0 ∧
    ({ station .running 0 with plan := some { plan with sequence := [0] } } : State).sequence = [0] ∧
    nextStage (station .running 0).sequence 0 = some 1 ∧ (1 : StageId) ≠ 0 ∧ (changing false none).committed = false ∧
    nextStage (station .running 0).sequence (changing false none).toStage = some 0 ∧
    (0 : StageId) ≠ (changing false none).toStage ∧ (changing true none).committed = true ∧
    (station .running 0).seq.service = none ∧ (station .running 0).ctrl.wait = false := by decide

theorem test_meets_Queries :
    (station .running 0).ctrl.mode ≠ .dark ∧ (station .running 0).diag = none ∧
    (lineLevels 83).getLsbD 0 = false ∧ (lineLevels 83).getLsbD 9 = true ∧ (lineLevels 83).extractLsb' 1 8 = 83 ∧
    (1023 : BitVec 10).getLsbD 0 = true ∧ (0 : BitVec 10).getLsbD 9 = false ∧ (lineLevels 115).extractLsb' 1 8 ≠ 83 ∧
    (84 : Byte) ∉ ([83, 71, 68, 80, 67, 70, 78] : List Byte) ∧ (83 : Byte) ∈ ([83, 71, 68, 80, 67, 70, 78] : List Byte) ∧
    625000 * (replyOf 69 [84]).length / 19296 ≤ 226 := by decide

theorem test_meets_diagPin :
    ({ station .running 0 with diag := some { chars := [126], elapsed := 0 } } : State).diag =
      some { chars := [126], elapsed := 0 } ∧ ([126] : List Byte)[0]? = some 126 ∧
    (List.range 10).map (fun n =>
      ({ station .running 0 with diag := some { chars := [126], elapsed := 0 } } : State).diagPin (some n)) =
      [false, false, true, true, true, true, true, true, false, true] := by decide

/-! ### Hypotheses met: the laws -/

theorem test_meets_latchSafe : (station .running 0).latchSafe := by unfold State.latchSafe; decide

theorem test_meets_loadSafe : (station .running 0).loadSafe := by
  refine ⟨by decide, by decide⟩

theorem test_meets_conflictSafe : (station .running 0).conflictSafe := by
  refine ⟨by unfold State.conflictsSymmetric; decide, (fun h => nomatch h), by decide⟩

theorem test_meets_cycleSafe : ({ station .running 0 with cycle := cycleAt true 599 0 } : State).cycleSafe := by
  refine ⟨?_, by decide, fun _ => ⟨plan, rfl, by decide⟩⟩
  intro p h
  have e : plan = p := Option.some.inj h
  rw [← e]
  decide

theorem test_meets_claimsSafe : (withTable [entry .ready 0]).claimsSafe := by unfold State.claimsSafe; decide

/-- A SERVING entry of stage S2, which is the service stage and the target. -/
theorem test_meets_serviceSafe :
    ({ withTable [entry .serving 0] with seq := { Seq.reset with st := .dwell 1, service := some 1 } } : State).serviceSafe := by
  refine ⟨by decide, by decide, by decide, ?_, ?_⟩
  · intro c h
    have e : (1 : StageId) = c := Option.some.inj h
    rw [← e]
    decide
  · intro r h
    nomatch h

theorem test_meets_driveSafe : (station .running 0).driveSafe := by unfold State.driveSafe; decide

theorem test_meets_sequencerSafe : (timed .allRed 0).sequencerSafe := by unfold State.sequencerSafe; decide

/-- START_FLASH, the groups FLASHING but for the UNUSED, which are DARK. -/
def flashingStation : State :=
  { timed .startFlash 0 with
    groups := .tab fun g =>
      if (plan.groups.nth g).kind = .unused then Group.reset else { Group.reset with state := .flashing } }

theorem test_meets_forceSafe : flashingStation.loadSafe ∧ flashingStation.forceSafe := by
  refine ⟨⟨by decide, by decide⟩, ?_⟩
  unfold State.forceSafe
  decide

theorem test_meets_timerSafe : (timed .allRed 0).timerSafe := by unfold State.timerSafe; decide

theorem test_meets_groupsRegular : (withGroups (green .close) opening waiting).groupsRegular := by
  unfold State.groupsRegular Group.regular; decide

theorem test_meets_recordsSafe : (peerAt .present 3 0).recordsSafe := by unfold State.recordsSafe; decide

/-- A step completes from any of these states. -/
theorem test_meets_law_steps (s : State) : ∃ t, step { s with pending := [.stationQuery] } = .next t := ⟨_, rfl⟩

/-- A latch that panel fault reset clears, and a boundary command that takes a boundary (R178, R21). -/
theorem test_meets_clearing :
    ({ station .faultFlash 0 with
        lamps := { Lamps.reset with redOut := some 0 }
        panel := { Panel.reset with faultReset := panelAt false } } : State).lamps.redOut.isSome = true ∧
    (∃ t, exec (.panelFaultReset false 3125)
      { station .faultFlash 0 with
        lamps := { Lamps.reset with redOut := some 0 }
        panel := { Panel.reset with faultReset := panelAt false } } = .next t ∧ t.lamps.redOut = none) := by
  exact ⟨by decide, _, rfl, by decide +kernel⟩

/-! ### One command each -/

/-- What `f` reads in the state after a command. -/
def after {α : Type} (c : Instr) (s : State) (f : State → α) : Option α :=
  match exec c s with
  | .next t => some (f t)
  | .fault _ => none
  | .refused _ => none

set_option maxRecDepth 4000 in
theorem test_crc : crc16 [49, 50, 51, 52, 53, 54, 55, 56, 57] = 0x6F91 := by decide

theorem test_reset_short : after (.startUpReset (.resetLine 62)) (station .running 0) (·.ctrl.mode) = some .running := by
  decide +kernel

theorem test_reset_held : after (.startUpReset (.resetLine 63)) (station .running 0) (·.ctrl.mode) = some .dark := by
  decide +kernel

/-- While the filtered RESET level is asserted, a low pulse of any length leaves the DARK time of the groups (R194). -/
theorem test_reset_asserted : [1, 62, 63].map (fun held => after (.startUpReset (.resetLine held))
    { dark true (some true) with groups := .tab fun _ => { Group.reset with time := 9 } }
    (fun t => ((t.groups.nth 0).time, t.resetPin.level))) =
    [some (9, some true), some (9, some true), some (9, some true)] := by decide +kernel

theorem test_release : after .resetRelease (dark true (some false)) (fun t => (t.ctrl.mode, t.planRead.port.length, t.line.frameTimer)) =
    some (.loading, 71, some 0) := by decide +kernel

theorem test_release_held : after .resetRelease (dark true (some true)) (·.ctrl.mode) = some .dark := by decide +kernel

/-- The RESET line is high for tRF in DARK: the release is due then, and not a tick before. -/
theorem test_release_due :
    after (.startUpReset (.resetLineHigh 63)) (dark true (some true)) State.releaseDue = some true ∧
    after (.startUpReset (.resetLineHigh 62)) (dark true (some true)) State.releaseDue = some false ∧
    after (.startUpReset .supplyReached) (dark false (some false)) State.releaseDue = some true := by decide +kernel

/-- A driver that does not reach the line leaves the expiry without a run (R7, R12). -/
theorem test_expiry_unreached :
    after (.frameTimerExpiry ⟨none, false⟩) (station .running 6250) (fun t => (t.line.markDrive, t.line.pending)) =
      some (some 32, some { age := 0, run := false }) := by decide +kernel

theorem test_expiry_drives :
    after (.frameTimerExpiry ⟨none, true⟩) (station .running 6250) (fun t => (t.line.markDrive, t.line.pending)) =
      some (some 32, some { age := 0, run := true }) := by decide +kernel

theorem test_expiry_joins_late : after (.frameTimerExpiry ⟨some 17, false⟩) (station .running 6250) (·.line.markDrive) = some none := by
  decide +kernel

/-- Worked example 1.5 at 6 291: a run of 41 bit times gives the boundary, the frame start at its leading edge. -/
theorem test_boundary : after (.dominantRunEnd 41 false) { pendingAt 43 true with plan := none } (fun t => (t.line.frameTimer, t.line.pending, t.act)) =
    some (some 41, none, true) := by decide +kernel

theorem test_stuck : after (.lineStuck 201) (station .running 4000) (fun t => (t.line.st, t.act)) = some (.stuck, false) := by
  decide +kernel

theorem test_silent_boundary : after .joinWindowClose { pendingAt 16 false with plan := none } (fun t => (t.line.frameTimer, t.act)) =
    some (some 16, true) := by decide +kernel

theorem test_lead_in : after .recordTransmission atLeadIn (·.line.sending) = some (some 0) := by decide +kernel

theorem test_third_collision : after .ownSlotEnd (slotOver .collision 2 1) (fun t => (t.line.st, t.line.sfKind, t.line.budget)) =
    some (.silentFault, .timed, 0) := by decide +kernel

theorem test_slot_good : slotOutcome 1 (noise 5 :: received 20) = .good record := by decide +kernel

theorem test_slot_late : slotOutcome 1 (received 121) = .silent := by decide +kernel

theorem test_slot_further_edge : slotOutcome 1 (received 0 ++ [edgeOf 345 0]) = .bad := by decide +kernel

/-- A mismatch stops the transmission at once, before its run has ended (R12). -/
theorem test_mismatch_stops : after (.collision (.dominant none)) { atLeadIn with line := { atLeadIn.line with sending := some 5 } }
    (fun t => (t.line.sending, t.line.txEnd, t.line.collisions)) = some (none, some .judging, 0) := by decide +kernel

/-- A level read back as it was sent changes nothing; sent dominant and read recessive is a collision (R12). -/
theorem test_readback :
    let at_ := fun n => onLine (fun l => { l with sending := some n }) atLeadIn
    [(Readback.recessive, 1), (.recessive, 9), (.dominant none, 0), (.dominant (some 10), 3)].map
      (fun q => after (.collision q.1) (at_ q.2) (· == at_ q.2)) = [some true, some true, some true, some true] ∧
    after (.collision .recessive) (at_ 3) (fun t => (t.line.sending, t.line.txEnd, t.line.collisions)) =
      some (none, some .collision, 1) := by decide +kernel

/-- Example 2.5: the tenth miss, at boundary 409, and the third good record, at boundary 432. -/
theorem test_peer_lost : ((((peerAt .present 3 9).peers.nth 1).evaluate 4660 .silent).presence,
    (((peerAt .heard 2 0).peers.nth 1).evaluate 4660 (.good record)).presence,
    (((peerAt .heard 2 0).peers.nth 1).evaluate 4661 (.good record)).presence,
    (((peerAt .heard 2 0).peers.nth 1).evaluate 4660 .bad).badCount) = (.lost, .present, .foreign, 1) := by decide +kernel

theorem test_classified : after (.peerClassification 1 record.encode) (peerAt .heard 2 0) (fun t => (t.peers.nth 1).presence) =
    some .present := by decide +kernel

theorem test_divergence : after .divergenceAdoption diverged (fun t => (t.cycle.active, t.cycle.set, t.cycle.divCount)) =
    some (2, false, 0) := by decide +kernel

theorem test_pattern_line : after (.patternLineChange .b false 3125) (station .running 0) (·.cycle.pair) = some 2 := by
  decide +kernel

/-- G1 has a tPRE and enters PREPARE; G2 has none and enters GREEN. -/
theorem test_grant : (after (.openGrant 0) (withGroups opening waiting waiting) (fun t => (t.groups.nth 0).state),
    after (.openGrant 1) (withGroups waiting opening waiting) (fun t => (t.groups.nth 1).state)) =
    (some .prepare, some .green) := by decide +kernel

/-- The lower-numbered of two conflicting groups leaves RED, whichever is named. -/
theorem test_grant_lower : after (.openGrant 1) (withGroups opening opening waiting)
    (fun t => ((t.groups.nth 0).state, (t.groups.nth 1).state)) = some (.prepare, .red) := by decide +kernel

theorem test_min_green_closes : after (.minGreenEnd 0) (withGroups (green .close) waiting waiting)
    (fun t => (t.groups.nth 0).state) = some .clearing := by decide +kernel

theorem test_clearing_end : after (.clearingEnd 0) (withGroups { Group.reset with state := .clearing, time := 187500 } waiting waiting)
    (fun t => ((t.groups.nth 0).state, (t.groups.nth 0).time)) = some (.red, 0) := by decide +kernel

theorem test_button : after (.detectorRisingEdge 2) (withDet 2 (detAt true false))
    (fun t => (t.callers.nth 0, (t.dets.nth 2).count)) = some (4, 1) := by decide +kernel

/-- The own claim of D4 is served at once: the sequencer's service stage is S2 (R134, R137, R141). -/
theorem test_claim : after (.detectorRisingEdge 3) (withDet 3 (detAt true false))
    (fun t => (t.claims.own.length, t.claims.table.map (·.state), t.seq.service)) =
    some (1, [.serving], some 1) := by decide +kernel

theorem test_checkout : after (.detectorRisingEdge 4) ((withDet 4 (detAt true false)).withClaimTable [entry .serving 9])
    (fun t => t.claims.table.map (·.state)) = some [.cleared] := by decide +kernel

theorem test_capture : after (.detectorFallingEdge 0) (withDet 0 { detAt false true with active := some 62500 })
    (fun t => (t.dets.nth 0).capture) = some 10 := by decide +kernel

theorem test_claim_ready : after (.claimReady 1 5) (withTable [entry .waiting 625000])
    (fun t => t.claims.table.map (·.state)) = some [.serving] := by decide +kernel

theorem test_hold_end : after (.holdEnd 1 5) (withTable [{ entry .serving 0 with hold := some 0 }])
    (fun t => (t.claims.table.map (·.state), t.seq.service)) = some ([.cleared], none) := by decide +kernel

theorem test_conflict : after (.conflict 0 1) conflicting (fun t => (t.ctrl.mode, t.lamps.conflict, t.faultOutput)) =
    some (.faultFlash, some (.conflict 0 1), true) := by decide +kernel

/-- A red-out due at the moment of a conflict latches too (R162). -/
theorem test_both_latch : after (.conflict 0 1) bothDue (fun t => (t.lamps.conflict, t.lamps.redOut.isSome, t.ctrl.reasons)) =
    some (some (.conflict 0 1), true, { conflict := true, redOut := true, selfCheck := false, plan := false }) := by
  decide +kernel

theorem test_self_check_pass : after .selfCheckPass (selfChecking true 62500)
    (fun t => (t.ctrl.mode, t.lamps.checkPassed, (t.groups.nth 0).state)) = some (.startFlash, true, .flashing) := by
  decide +kernel

/-- The entry to RUNNING begins the start change, and its open of G1 is granted (R98, R66). -/
theorem test_all_red_end : after .allRedEnd (timed .allRed 187500)
    (fun t => (t.ctrl.mode, t.seq.st.shownTarget, (t.groups.nth 0).state)) = some (.running, some 0, .prepare) := by
  decide +kernel

theorem test_flash_request : after (.flashRequestChange false 3125) (station .running 0) (·.ctrl.mode) = some .panelFlash := by
  decide +kernel

/-- A row whose levels are not of its own outcome changes nothing. -/
theorem test_transfer_retry :
    after (.transferFailure [true, true]) reading (fun t => (t.planRead.retry, t.planRead.port)) = some (1, []) ∧
    after (.planTransfer [true, true]) reading (· == reading) = some true ∧
    after (.transferFailure (answered block)) reading (· == reading) = some true := by decide +kernel

theorem test_header_fault : after (.planTransfer (answered (List.replicate 64 255))) reading
    (fun t => (t.ctrl.mode, t.ctrl.planFault, t.ctrl.firstFault, t.planRead.readState)) =
    some (.faultFlash, 2, some .plan, .failed) := by decide +kernel

/-- An error reply: 126, 69, length 1, the character, the sum. -/
theorem test_error_reply : after (.errorReply (lineLevels 84)) (station .running 0) (fun t => t.diag.map (·.chars)) =
    some (some [126, 69, 1, 0, 84, 24]) := by decide +kernel

theorem test_station_query : after .stationQuery (station .running 0) (fun t => t.diag.map (·.chars.take 8)) =
    some (some [126, 83, 24, 0, 4, 0, 255, 0]) := by decide +kernel

/-- The lower-case s is answered with itself, and as no STATION_QUERY; noise, a line held low and a character that ends
while the port is busy change nothing. -/
theorem test_receiver :
    after (.errorReply (lineLevels 115)) (station .running 0) (fun t => t.diag.map (·.chars)) =
      some (some [126, 69, 1, 0, 115, 55]) ∧
    [Instr.stationQuery (lineLevels 115), .stationQuery 679, .errorReply 1023, .errorReply 0, .diagFramingError].map
      (fun c => after c (station .running 0) (fun t => t.diag.isNone)) = [some true, some true, some true, some true, some true] ∧
    after (.diagCharacterIgnored (lineLevels 83)) { station .running 0 with diag := some { chars := [126], elapsed := 7 } }
      (·.diag) = some (some { chars := [126], elapsed := 7 }) ∧
    ((List.range 11).map fun n => receivePin 83 (some n)) =
      [false, true, true, false, false, true, false, true, false, true, true] := by decide +kernel

end Sys2Proof.Tests
end

section
/-! PROOFS. The CRC-16 (R16): its computation bit by bit, and the uses of its two bytes. -/

namespace Sys2Proof.Machine

/-- The polynomial with the taps 12, 5 and 0 of R16, in a register that shifts toward its low end: tap `k` stands in
bit `15 - k`. -/
theorem crcPolynomial_getLsbD (i : Fin 16) : (33800#16).getLsbD i.val =
    (decide (i.val = 15 - 12) || decide (i.val = 15 - 5) || decide (i.val = 15 - 0)) := by
  revert i
  decide

/-- The fold over the bit numbers 0 to 7 of a byte is eight single bits, the lowest first (R16). -/
theorem crcByte_eq_crcBits (reg : Half) (b : Byte) : crcByte reg b =
    crcBit (crcBit (crcBit (crcBit (crcBit (crcBit (crcBit (crcBit reg (b.getLsbD 0)) (b.getLsbD 1))
      (b.getLsbD 2)) (b.getLsbD 3)) (b.getLsbD 4)) (b.getLsbD 5)) (b.getLsbD 6)) (b.getLsbD 7) := by
  have bits : List.range 8 = [0, 1, 2, 3, 4, 5, 6, 7] := rfl
  simp only [crcByte, bits, List.foldl_cons, List.foldl_nil]

/-- A further byte goes into the register that the bytes before it left (R16). -/
theorem crc16_concat (l : List Byte) (b : Byte) : crc16 (l ++ [b]) = crcByte (crc16 l) b := by
  simp only [crc16, List.foldl_append, List.foldl_cons, List.foldl_nil]

/-- Two bytes hold a 16-bit value where the first is its low byte and the second its high byte (00 0.5). -/
theorem pair_eq_halfBytes_iff (a b : Byte) (h : Half) :
    [a, b] = halfBytes h ↔ a = h.extractLsb' 0 8 ∧ b = h.extractLsb' 8 8 := by
  simp only [halfBytes, List.cons.injEq, and_true]

/-- The characters of a record end with the CRC-16 of those before them exactly where its low byte is the last but one
and its high byte the last (R15, R16). -/
theorem crcMatches_append_pair_iff (l : List Byte) (a b : Byte) : crcMatches (l ++ [a, b]) = true ↔
    a = (crc16 l).extractLsb' 0 8 ∧ b = (crc16 l).extractLsb' 8 8 := by
  have front : (l ++ [a, b]).length - 2 = l.length := by simp
  rw [← pair_eq_halfBytes_iff, crcMatches, front, List.drop_left, List.take_left, beq_iff_eq]

/-- A plan image that is as long as it says passes its CRC check exactly where its last two bytes are the CRC-16 of
those before them, low byte first (R16, R185). -/
theorem imageCrcOk_append_pair_iff (l : List Byte) (a b : Byte) : imageCrcOk (l ++ [a, b]) (l.length + 2) = true ↔
    a = (crc16 l).extractLsb' 0 8 ∧ b = (crc16 l).extractLsb' 8 8 := by
  rw [← pair_eq_halfBytes_iff, imageCrcOk, Nat.add_sub_cancel, List.take_left, List.drop_left, beq_iff_eq, eq_comm]
  simp only [List.take_succ_cons, List.take_zero]

/-- Settles O18: the computation from its single bit, byte and sequence equations, and each use from what the two
appended bytes say. -/
theorem crc16IsComputedBitByBit : Obligations.Crc16IsComputedBitByBit := by
  refine ⟨fun reg b => ?bit, crcPolynomial_getLsbD, crcByte_eq_crcBits, ?preset, crc16_concat, fun l => ?lowByteFirst,
    fun r => ?record, crcMatches_append_pair_iff, imageCrcOk_append_pair_iff, fun m => ?fingerprint⟩
  case bit => rw [crcBit]
  case preset => rw [crc16, List.foldl_nil]
  case lowByteFirst => rw [withCrc, halfBytes]
  case record => exact ⟨_, by rw [Record.encode]⟩
  case fingerprint => rw [Image.plan]

end Sys2Proof.Machine
end

section
/-! PROOFS. The local position (R47): the two sides of OFS, their common value modulo C, and the UNSET clock. -/

namespace Sys2Proof.Machine

theorem localOf_of_le {c ofs position : Nat} (h : ofs ≤ position) : localOf c ofs position = position - ofs :=
  if_pos h

/-- Below OFS the local position is the corridor position plus C − OFS (R47). -/
theorem localOf_of_lt {c ofs position : Nat} (h : position < ofs) (hofs : ofs ≤ c) :
    localOf c ofs position = position + (c - ofs) := by
  rw [localOf, if_neg (Nat.not_le.mpr h), Nat.add_sub_assoc hofs]

/-- At a corridor position of OFS the local position is 0 (R47). -/
theorem localOf_self (c ofs : Nat) : localOf c ofs ofs = 0 := by
  rw [localOf_of_le (Nat.le_refl ofs), Nat.sub_self]

/-- The corridor position less OFS, modulo C: at or above OFS one C is taken off, below it none (R47). -/
theorem localOf_eq_mod {c ofs position : Nat} (hpos : position < c) (hofs : ofs < c) :
    localOf c ofs position = (position + c - ofs) % c := by
  rcases Nat.lt_or_ge position ofs with below | above
  · have small : position + (c - ofs) < c := by omega
    rw [localOf_of_lt below (Nat.le_of_lt hofs), Nat.add_sub_assoc (Nat.le_of_lt hofs), Nat.mod_eq_of_lt small]
  · have small : position - ofs < c := by omega
    rw [localOf_of_le above, Nat.sub_add_comm above, Nat.add_mod_right, Nat.mod_eq_of_lt small]

/-- While the clock is SET, the local position is that of the active pattern's C and OFS (R47). -/
theorem State.localPosition_of_set {s : State} {p : Plan} {d : PatternDef} (hp : s.plan = some p)
    (hset : s.cycle.set = true) (hd : p.patternOf s.cycle.active = some d) :
    s.localPosition = localOf (p.cOf s.cycle.active) d.ofs s.cycle.position := by
  simp only [State.localPosition, hp, hd, hset, if_true]

/-- While the clock is UNSET the local position reads 0, whatever the plan and the active pattern (R47, R56). -/
theorem State.localPosition_of_unset {s : State} (h : s.cycle.set = false) : s.localPosition = 0 := by
  unfold State.localPosition
  cases s.plan with
  | none => rfl
  | some p =>
    cases hd : p.patternOf s.cycle.active with
    | none => simp only [hd]
    | some d => simp only [hd, h, Bool.false_eq_true, if_false]

/-- An UNSET clock gives no coordinated operation (R86). -/
theorem State.coordinatedOp_of_unset {s : State} (h : s.cycle.set = false) : s.coordinatedOp = false := by
  rw [State.coordinatedOp, h, Bool.false_and]

/-- Settles O22: a SET clock's local position through the laws of `localOf`, the worked values at both sides of OFS, and
the UNSET clock, under which operation is isolated and so every stage is eligible. -/
theorem localPosition : Obligations.LocalPosition := by
  refine ⟨fun s p d hp hset hd hpos hofs => ?set, localOf_of_lt (by decide) (by decide), localOf_self 600 40,
    localOf_of_le (by decide), fun c => localOf_self c 0, fun s unset => ?unset⟩
  case set =>
    rw [State.localPosition_of_set hp hset hd]
    refine ⟨localOf_eq_mod hpos hofs, fun atOfs => ?_, fun below => localOf_of_lt below (Nat.le_of_lt hofs)⟩
    rw [atOfs, localOf_self]
  case unset =>
    have isolated := State.coordinatedOp_of_unset unset
    exact ⟨State.localPosition_of_unset unset, isolated, fun t => State.eligible_always (.inl isolated)⟩

end Sys2Proof.Machine
end

section
/-! PROOFS. The law of the latches (R178): the four ways in which a command moves FAULT_FLASH and the two latches, and the FAULT output. -/

namespace Sys2Proof.Machine

/-! ### How a command moves the latches -/

/-- From `s` to `t` both latches stand, and so does FAULT_FLASH where it is the mode. -/
structure State.latchesStand (s t : State) : Prop where
  conflict : t.lamps.conflict = s.lamps.conflict
  redOut : t.lamps.redOut = s.lamps.redOut
  faultFlash : s.ctrl.mode = .faultFlash → t.ctrl.mode = .faultFlash

theorem State.latchesStand_refl (s : State) : s.latchesStand s := ⟨rfl, rfl, id⟩

/-- The ways in which a command moves the latches and FAULT_FLASH (R170, R177 to R179). -/
inductive LatchMove (c : Instr) (s t : State) : Prop
  /-- The latches stand, and FAULT_FLASH is not left. -/
  | stand (move : s.latchesStand t)
  /-- A fault event leads to FAULT_FLASH, and no latch is cleared. -/
  | fault (mode : t.ctrl.mode = .faultFlash) (conflict : t.lamps.conflict = none → s.lamps.conflict = none)
      (redOut : t.lamps.redOut = none → s.lamps.redOut = none)
  /-- Start-up reset clears both latches and leads to DARK. -/
  | startUp (cause : ResetCause) (command : c = .startUpReset cause) (mode : t.ctrl.mode = .dark)
      (conflict : t.lamps.conflict = none) (redOut : t.lamps.redOut = none)
  /-- Panel fault reset without reason PLAN clears both latches and leads to CHECK. -/
  | panel (pin : Bool) (held : Nat) (command : c = .panelFaultReset pin held) (plan : s.ctrl.reasons.plan = false)
      (mode : t.ctrl.mode = .check) (conflict : t.lamps.conflict = none) (redOut : t.lamps.redOut = none)

/-- START_UP_RESET takes the latches and the mode to their reset values, or moves the supply and the RESET filter
alone (R170, R194). -/
theorem State.startUpReset_latches (s : State) (cause : ResetCause) :
    s.latchesStand (s.startUpReset cause) ∨ ((s.startUpReset cause).ctrl.mode = .dark ∧
      (s.startUpReset cause).lamps.conflict = none ∧ (s.startUpReset cause).lamps.redOut = none) := by
  cases cause with
  | powerOn => exact .inr ⟨rfl, rfl, rfl⟩
  | supplyFall => exact .inr ⟨rfl, rfl, rfl⟩
  | resetLine held =>
    unfold State.startUpReset
    dsimp only
    split
    · exact .inr ⟨rfl, rfl, rfl⟩
    · exact .inl ⟨rfl, rfl, id⟩
  | supplyReached => exact .inl ⟨rfl, rfl, id⟩
  | resetLineHigh held => exact .inl ⟨rfl, rfl, id⟩

/-- Red-outs that latch beside a conflict clear no red-out latch. -/
theorem State.alsoRedOut_redOut_none {s t : State} (l : List GroupId) (flashed : s.flashedFrom t)
    (unset : (t.alsoRedOut l).lamps.redOut = none) : t.lamps.redOut = none := by
  obtain ⟨_, _, _, stands, _⟩ := State.alsoRedOut_law l flashed
  exact Classical.byContradiction fun latched => latched ((stands (.inr latched)).1 ▸ unset)

/-- Pairs that latch beside a red-out clear no conflict latch. -/
theorem State.alsoConflict_conflict_none {s t : State} (l : List (GroupId × GroupId)) (flashed : s.flashedFrom t)
    (unset : (t.alsoConflict l).lamps.conflict = none) : t.lamps.conflict = none := by
  obtain ⟨_, _, _, stands, _⟩ := State.alsoConflict_law l flashed
  exact Classical.byContradiction fun latched => latched ((stands (.inr latched)).1 ▸ unset)

/-- A state in FAULT_FLASH that cleared no latch of `s` keeps both while everything at its moment follows. -/
theorem LatchMove.fault_react {c : Instr} {s t : State} (flashed : s.flashedFrom t)
    (conflict : t.lamps.conflict = none → s.lamps.conflict = none)
    (redOut : t.lamps.redOut = none → s.lamps.redOut = none) : LatchMove c s t.react := by
  obtain ⟨⟨mode, _⟩, _, conflictStands, redOutStands⟩ := State.react_faultFlash flashed
  exact .fault mode (conflictStands ▸ conflict) (redOutStands ▸ redOut)

theorem State.conflictEvent_latchMove (c : Instr) (s : State) (a b : GroupId) : LatchMove c s (s.conflictEvent a b) := by
  unfold State.conflictEvent
  split
  case isFalse => exact .stand s.latchesStand_refl
  case isTrue due =>
    have unset : s.lamps.conflict = none := Option.isNone_iff_eq_none.mp (Bool.and_eq_true_iff.mp due).2
    obtain ⟨flashed, _, redOutStands, _⟩ := State.latchConflict_clear unset (.conflict a b)
    obtain ⟨alsoFlashed, _⟩ := State.alsoRedOut_law s.dueReds flashed
    exact .fault_react alsoFlashed (fun _ => unset)
      (fun still => redOutStands ▸ State.alsoRedOut_redOut_none s.dueReds flashed still)

theorem State.greenInFlash_latchMove (c : Instr) (s : State) (g : GroupId) : LatchMove c s (s.greenInFlash g) := by
  unfold State.greenInFlash
  split
  case isFalse => exact .stand s.latchesStand_refl
  case isTrue due =>
    have unset : s.lamps.conflict = none := Option.isNone_iff_eq_none.mp (Bool.and_eq_true_iff.mp due).2
    obtain ⟨flashed, _, redOutStands, _⟩ := State.latchConflict_clear unset (.greenInFlash g)
    exact .fault_react flashed (fun _ => unset) (fun still => redOutStands ▸ still)

theorem State.redOutEvent_latchMove (c : Instr) (s : State) (g : GroupId) : LatchMove c s (s.redOutEvent g) := by
  unfold State.redOutEvent
  split
  case isFalse => exact .stand s.latchesStand_refl
  case isTrue due =>
    have unset : s.lamps.redOut = none := Option.isNone_iff_eq_none.mp (Bool.and_eq_true_iff.mp due).2
    obtain ⟨flashed, _, conflictStands, _⟩ := State.latchRedOut_clear unset g
    obtain ⟨alsoFlashed, _⟩ := State.alsoConflict_law s.duePairs flashed
    exact .fault_react alsoFlashed
      (fun still => conflictStands ▸ State.alsoConflict_conflict_none s.duePairs flashed still) (fun _ => unset)

/-- Every command moves the latches in one of the four ways. -/
theorem exec_latchMove {c : Instr} {s t : State} (e : exec c s = .next t) : LatchMove c s t := by
  cases hl : latching c with
  | false =>
    obtain ⟨conflict, redOut, faultFlash⟩ := exec_latches c s t hl e
    exact .stand ⟨conflict, redOut, faultFlash⟩
  | true =>
    unfold latching at hl
    split at hl
    next cause =>
      obtain rfl : s.startUpReset cause = t := by injection e
      rcases s.startUpReset_latches cause with move | ⟨mode, conflict, redOut⟩
      · exact .stand move
      · exact .startUp cause rfl mode conflict redOut
    next pin held =>
      have reset : s.panelFaultReset (activeLow pin) held = t := by injection e
      rcases s.panelFaultReset_latches _ _ t reset with
        ⟨conflict, redOut, faultFlash⟩ | ⟨_, plan, mode, conflict, redOut⟩
      · exact .stand ⟨conflict, redOut, faultFlash⟩
      · exact .panel pin held rfl plan mode conflict redOut
    next a b =>
      obtain rfl : s.conflictEvent a b = t := by injection e
      exact s.conflictEvent_latchMove _ a b
    next g =>
      obtain rfl : s.greenInFlash g = t := by injection e
      exact s.greenInFlash_latchMove _ g
    next g =>
      obtain rfl : s.redOutEvent g = t := by injection e
      exact s.redOutEvent_latchMove _ g
    next => cases hl

/-! ### The law (R178) -/

/-- Where the latches and FAULT_FLASH stand, the law stands. -/
theorem State.latchesStand.latchSafe {s t : State} (move : s.latchesStand t) (safe : s.latchSafe) : t.latchSafe := by
  unfold State.latchSafe
  rw [move.conflict, move.redOut]
  exact fun latched => move.faultFlash (safe latched)

/-- With both latches clear the law asks for nothing. -/
theorem State.latchSafe_of_clear {s : State} (conflict : s.lamps.conflict = none) (redOut : s.lamps.redOut = none) :
    s.latchSafe := by
  unfold State.latchSafe
  rw [conflict, redOut]
  nofun

theorem LatchMove.latchSafe {c : Instr} {s t : State} (move : LatchMove c s t) (safe : s.latchSafe) : t.latchSafe := by
  cases move with
  | stand move => exact move.latchSafe safe
  | fault mode _ _ => exact fun _ => mode
  | startUp _ _ _ conflict redOut => exact State.latchSafe_of_clear conflict redOut
  | panel _ _ _ _ _ conflict redOut => exact State.latchSafe_of_clear conflict redOut

/-- The timings that a tick moves touch neither the latches nor the mode. -/
theorem State.tick_latchesStand (s : State) : s.latchesStand s.tick := by
  unfold State.tick
  dsimp only
  split <;> exact ⟨rfl, rfl, id⟩

/-- A latch that is set is cleared by start-up reset, in DARK, or by a panel fault reset without reason PLAN, in CHECK. -/
theorem LatchMove.of_cleared {c : Instr} {s t : State} (move : LatchMove c s t)
    (cleared : s.lamps.conflict.isSome = true ∧ t.lamps.conflict = none ∨
      s.lamps.redOut.isSome = true ∧ t.lamps.redOut = none) :
    (∃ cause, c = .startUpReset cause ∧ t.ctrl.mode = .dark) ∨
    (∃ pin held, c = .panelFaultReset pin held ∧ t.ctrl.mode = .check ∧ s.ctrl.reasons.plan = false) := by
  have contra (conflict : t.lamps.conflict = none → s.lamps.conflict = none)
      (redOut : t.lamps.redOut = none → s.lamps.redOut = none) : False := by
    rcases cleared with ⟨latched, unset⟩ | ⟨latched, unset⟩
    · exact absurd (conflict unset) (Option.isSome_iff_ne_none.mp latched)
    · exact absurd (redOut unset) (Option.isSome_iff_ne_none.mp latched)
  cases move with
  | stand move => exact (contra move.conflict.symm.trans move.redOut.symm.trans).elim
  | fault _ conflict redOut => exact (contra conflict redOut).elim
  | startUp cause command mode _ _ => exact .inl ⟨cause, command, mode⟩
  | panel pin held command plan mode _ _ => exact .inr ⟨pin, held, command, mode, plan⟩

/-- FAULT_FLASH is left by start-up reset, or by a panel fault reset without reason PLAN that clears both latches. -/
theorem LatchMove.of_left {c : Instr} {s t : State} (move : LatchMove c s t) (before : s.ctrl.mode = .faultFlash)
    (left : t.ctrl.mode ≠ .faultFlash) :
    (∃ cause, c = .startUpReset cause) ∨
    (∃ pin held, c = .panelFaultReset pin held ∧ s.ctrl.reasons.plan = false ∧
      t.lamps.conflict = none ∧ t.lamps.redOut = none) := by
  cases move with
  | stand move => exact absurd (move.faultFlash before) left
  | fault mode _ _ => exact absurd mode left
  | startUp cause command _ _ _ => exact .inl ⟨cause, command⟩
  | panel pin held command plan _ conflict redOut => exact .inr ⟨pin, held, command, plan, conflict, redOut⟩

/-! ### The FAULT output (R164) -/

theorem State.faultOutput_of_faultFlash {s : State} (mode : s.ctrl.mode = .faultFlash) : s.faultOutput = true := by
  rw [State.faultOutput, mode]

/-- Outside FAULT_FLASH and DARK the FAULT output flashes while a sticky lamp flag is set (R164). -/
theorem State.faultOutput_of_other {s : State} (notFlash : s.ctrl.mode ≠ .faultFlash) (notDark : s.ctrl.mode ≠ .dark) :
    s.faultOutput = (s.anySticky && s.lamps.phase) := by
  unfold State.faultOutput
  split
  next dark => exact absurd dark notDark
  next flash => exact absurd flash notFlash
  all_goals rfl

/-- Settles O46: a tick leaves the latches and the mode, and each of the four ways in which a command moves them keeps
the law; the ways in which a latch is cleared or FAULT_FLASH left are read off the same four. -/
theorem latchedFaultsHoldFaultFlash : Obligations.LatchedFaultsHoldFaultFlash := by
  refine ⟨fun s t safe run => ?law, ?reset, fun c s t e _ cleared => (exec_latchMove e).of_cleared cleared,
    fun c s t e before left => (exec_latchMove e).of_left before left,
    fun s => ⟨State.faultOutput_of_faultFlash, State.faultOutput_of_other, ?pin⟩⟩
  case law =>
    exact step_keeps (P := State.latchSafe) (fun _ _ _ queued => queued) (fun u kept => u.tick_latchesStand.latchSafe kept)
      (fun _ _ _ e kept => (exec_latchMove e).latchSafe kept) safe run
  case reset => exact State.latchSafe_of_clear rfl rfl
  case pin => rw [State.faultPin, activeLow]

end Sys2Proof.Machine
end

section
/-! PROOFS. The plan read at reset (R192): what start-up reset gives it, its begin at the release, and that a panel fault reset leaves it. -/

namespace Sys2Proof.Machine

/-! ### The items of the plan read -/

/-- `t` holds every item of the plan read as `s` does (R192): those of its controller, the port among them, and the plan
fault code, which the station mode controller holds. -/
def State.planReadStands (s t : State) : Prop := t.planRead = s.planRead ∧ t.ctrl.planFault = s.ctrl.planFault

theorem State.planReadStands.trans {s t u : State} (first : s.planReadStands t) (second : t.planReadStands u) :
    s.planReadStands u :=
  ⟨second.1.trans first.1, second.2.trans first.2⟩

/-- What follows an event leaves the plan read. -/
theorem State.follows.planReadStands {s t : State} (h : s.follows t) : s.planReadStands t :=
  ⟨h.planRead_eq, h.ctrl_planFault_eq⟩

/-! ### Start-up reset (R170, R194) -/

/-- While the supply is at its operating level, a RESET line low for tRF has its filtered level asserted (R193, R194). -/
theorem State.sampleReset_asserted {s : State} {held : Nat} (supplied : s.supplyOk = true) (long : tRF ≤ held) :
    (s.sampleReset true held).resetPin.asserted = true := by
  rw [State.sampleReset, supplied, Filter.take, if_pos rfl, Filter.sample_held _ _ _ _ long]
  rfl

/-- A RESET line that becomes asserted resets every block (R170, R194). -/
theorem State.startUpReset_resetLine {s : State} {held : Nat} (supplied : s.supplyOk = true) (long : tRF ≤ held)
    (released : s.resetPin.level ≠ some true) :
    s.startUpReset (.resetLine held) = (s.sampleReset true held).resetAll := by
  have before : s.resetPin.asserted = false := beq_eq_false_iff_ne.mpr released
  rw [State.startUpReset, State.sampleReset_asserted supplied long, before]
  rfl

/-- Start-up reset takes every item of the plan read to its reset value, whatever it held (R192). -/
theorem State.resetAll_planReadStands (s : State) : State.reset.planReadStands s.resetAll := ⟨rfl, rfl⟩

/-- Power-on, a fall of the supply and a RESET line that becomes asserted each reset the plan read (R170, R192). -/
theorem State.startUpReset_planReadStands {s : State} {cause : ResetCause}
    (taken : cause = .powerOn ∨ cause = .supplyFall ∨ ∃ held, cause = .resetLine held ∧ tRF ≤ held ∧
      s.supplyOk = true ∧ s.resetPin.level ≠ some true) :
    State.reset.planReadStands (s.startUpReset cause) := by
  rcases taken with rfl | rfl | ⟨held, rfl, long, supplied, released⟩
  case inl => exact s.resetAll_planReadStands
  case inr.inl => exact s.resetAll_planReadStands
  case inr.inr =>
    rw [State.startUpReset_resetLine supplied long released]
    exact State.resetAll_planReadStands _

/-! ### The release of start-up reset (R171, R194) -/

/-- Start-up reset that nothing holds is due for its release (R194). -/
theorem State.releaseDue_of_free {s : State} (mode : s.ctrl.mode = .dark) (supplied : s.supplyOk = true)
    (released : s.resetPin.level = some false) : s.releaseDue = true := by
  rw [State.releaseDue, State.resetFree, mode, supplied, released]
  rfl

/-- At the release the plan read begins (R184). -/
theorem State.resetRelease_planRead {s : State} (due : s.releaseDue = true) :
    s.resetRelease.planRead = s.planRead.begin := by
  rw [State.resetRelease, if_pos due, State.react_planRead, State.enterMode_planRead]
  rfl

theorem PlanRead.begin_readState (r : PlanRead) : r.begin.readState = .reading := rfl

/-! ### Panel fault reset (R179, R193) -/

/-- The orders to the lamp flags and the detectors leave the plan read (R122, R161). -/
theorem State.clearOrders_planReadStands (s : State) : s.planReadStands s.clearLampFlags.detectorFaultReset := ⟨rfl, rfl⟩

/-- Clearing the latches and emptying the reason set leaves the plan read, the plan fault code with it (R179). -/
theorem State.clearFaults_planReadStands (s : State) : s.planReadStands s.clearLatches.emptyReasons := ⟨rfl, rfl⟩

/-- The orders of a panel fault reset, with the entry to CHECK or without it, leave the plan read. -/
theorem State.faultResetOrders_planReadStands (s : State) : s.planReadStands s.faultResetOrders := by
  have orders := s.clearOrders_planReadStands
  have cleared := orders.trans (State.clearFaults_planReadStands _)
  unfold State.faultResetOrders
  dsimp only
  split
  case isTrue => exact cleared.trans (State.enterMode_follows _ _).planReadStands
  case isFalse => exact orders

/-- A sample of the FAULT RESET line leaves the plan read, whether or not it is a press (R192, R193). -/
theorem State.panelFaultReset_planReadStands (s : State) (level : Bool) (held : Nat) :
    s.planReadStands (s.panelFaultReset level held) := by
  have sampled : s.planReadStands (s.sampleFaultReset level held) := ⟨rfl, rfl⟩
  unfold State.panelFaultReset
  dsimp only
  split
  case isTrue =>
    exact (sampled.trans (State.faultResetOrders_planReadStands _)).trans (State.react_follows _).planReadStands
  case isFalse => exact sampled

/-- Settles O7: the reset state item by item, start-up reset and panel fault reset as what they do to the items of the
plan read, and the read that begins at the release alone. -/
theorem planReadAfterStartUpReset : Obligations.PlanReadAfterStartUpReset := by
  refine ⟨rfl, rfl, rfl, rfl, rfl, rfl, fun s cause taken => ⟨_, rfl, State.startUpReset_planReadStands taken⟩,
    exec_planRead_notStarted, fun s mode supplied released => ⟨_, rfl, ?release⟩,
    fun s pin held => ⟨_, rfl, s.panelFaultReset_planReadStands (activeLow pin) held⟩⟩
  case release =>
    have due := State.releaseDue_of_free mode supplied released
    rw [State.resetRelease_planRead due, PlanRead.begin_readState]

end Sys2Proof.Machine
end

section
/-! PROOFS. How a command moves the plan, the line interface, the peer table and the cycle unit, and the laws that follow: of the corridor position (R41), of the line and the peers (R11, R13, R18, R28), and of ACT (R21). -/

namespace Sys2Proof.Machine

/-! ### The commands that can take a frame boundary -/

/-- DOMINANT_RUN_END, JOIN_WINDOW_CLOSE and LINE_STUCK (R9). -/
def takesBoundary (c : Instr) : Prop :=
  (∃ len edge, c = .dominantRunEnd len edge) ∨ c = .joinWindowClose ∨ ∃ run, c = .lineStuck run

/-- From `s` to `t` the line interface alone moves, or a frame boundary is taken with a line record that moved before it. -/
inductive BoundaryMove (s t : State) : Prop
  | line (rest : t = { s with line := t.line }) (move : s.line.moves t.line)
  | boundary (l : Line) (heard : Bool) (age : Nat) (outcome : StationId → Outcome) (move : s.line.moves l)
      (taken : t = State.frameBoundary { s with line := l } heard age outcome)

theorem BoundaryMove.nothing (s : State) : BoundaryMove s s := .line rfl (Line.moves_refl _)

theorem BoundaryMove.after_line {s t : State} {l : Line} (first : s.line.moves l)
    (second : BoundaryMove { s with line := l } t) : BoundaryMove s t := by
  cases second with
  | line rest move => exact .line (by rw [rest]) (first.trans move)
  | boundary m heard age outcome move taken => exact .boundary m heard age outcome (first.trans move) taken

theorem State.runEnd_boundaryMove (s : State) (len : Nat) (edge : Bool) : BoundaryMove s (s.runEnd len edge) := by
  have after : s.line.moves (s.line.afterRun len) := Line.afterRun_moves s.line len
  rw [State.runEnd_eq]
  split
  · exact .nothing s
  · split
    · exact .boundary _ _ _ _ after rfl
    · split
      · exact .boundary _ _ _ _ after rfl
      · exact .line rfl after

theorem State.dominantRunEnd_boundaryMove (s : State) (len : Nat) (edge : Bool) :
    BoundaryMove s (s.dominantRunEnd len edge) := by
  have forget : s.line.moves { s.line with run := none, recessive := 0 } := Line.moves_same rfl rfl rfl rfl rfl
  rw [State.dominantRunEnd_eq]
  split
  · exact .after_line forget (State.runEnd_boundaryMove _ len edge)
  · exact .line rfl forget

theorem State.joinWindowClose_boundaryMove (s : State) : BoundaryMove s s.joinWindowClose := by
  unfold State.joinWindowClose
  repeat' split
  all_goals first
    | exact .nothing s
    | exact .boundary s.line _ _ _ (Line.moves_refl _) rfl

theorem State.lineStuck_boundaryMove (s : State) (run : Nat) : BoundaryMove s (s.lineStuck run) := by
  rw [State.lineStuck_eq]
  split
  case isFalse => exact .nothing s
  case isTrue stuck =>
    have receiving : s.line.st.receiving = true := (Bool.and_eq_true_iff.mp stuck).1
    have move := Line.becomeStuck_moves s.line run receiving
    split
    · exact .line rfl move
    · exact .boundary _ _ _ _ move rfl

theorem exec_boundaryMove {c : Instr} {s t : State} (command : takesBoundary c) (e : exec c s = .next t) :
    BoundaryMove s t := by
  rcases command with ⟨len, edge, rfl⟩ | rfl | ⟨run, rfl⟩
  · obtain rfl : s.dominantRunEnd len edge = t := by injection e
    exact s.dominantRunEnd_boundaryMove len edge
  · obtain rfl : s.joinWindowClose = t := by injection e
    exact s.joinWindowClose_boundaryMove
  · obtain rfl : s.lineStuck run = t := by injection e
    exact s.lineStuck_boundaryMove run

/-! ### How a command moves the core of the state -/

/-- The ways in which a command moves the plan, the line interface, the peer table, the cycle unit and ACT. -/
inductive CoreMove (c : Instr) (s t : State) : Prop
  /-- All of them stand. -/
  | stand (core : s.core t)
  /-- The line interface alone moves. -/
  | line (rest : t = { s with line := t.line }) (move : s.line.moves t.line)
  /-- A command that can take a frame boundary (R9). -/
  | boundary (command : takesBoundary c) (move : BoundaryMove s t)
  /-- One peer table entry that is not ABSENT is classified, LOST or ABSENT (R32 to R34). -/
  | peer (k : StationId) (f : Peer → Peer) (known : (s.peers.nth k).presence ≠ .absent)
      (law : (s.peers.nth k).recordLaw → (f (s.peers.nth k)).recordLaw) (rest : t = s.updPeer k f)
  /-- The cycle unit alone moves. -/
  | clock (d : Cycle) (core : State.core { s with cycle := d } t) (law : Cycle.law s.plan s.cycle → Cycle.law s.plan d)
  /-- Start-up reset (R170). -/
  | startUp (cause : ResetCause) (command : c = .startUpReset cause) (core : State.reset.core t)
  /-- Start-up reset is released (R171). -/
  | release (command : c = .resetRelease) (mode : s.ctrl.mode = .dark) (core : s.released.core t)
  /-- The load succeeds (R172). -/
  | load (p : Plan) (checking : s.checking = true) (checked : checkImage s.planRead.buffer = .ok p)
      (mode : t.ctrl.mode = .check) (core : (s.writePlan p).core t)

theorem CoreMove.nothing {c : Instr} {s : State} : CoreMove c s s := .stand s.core_refl

theorem State.startUpReset_coreMove (s : State) (cause : ResetCause) :
    CoreMove (.startUpReset cause) s (s.startUpReset cause) := by
  cases cause with
  | powerOn => exact .startUp _ rfl ⟨rfl, rfl, rfl, rfl, rfl, rfl, rfl⟩
  | supplyFall => exact .startUp _ rfl ⟨rfl, rfl, rfl, rfl, rfl, rfl, rfl⟩
  | resetLine held =>
    unfold State.startUpReset
    dsimp only
    split
    · exact .startUp _ rfl ⟨rfl, rfl, rfl, rfl, rfl, rfl, rfl⟩
    · exact .stand ⟨rfl, rfl, rfl, rfl, rfl, rfl, rfl⟩
  | supplyReached => exact .stand ⟨rfl, rfl, rfl, rfl, rfl, rfl, rfl⟩
  | resetLineHigh held => exact .stand ⟨rfl, rfl, rfl, rfl, rfl, rfl, rfl⟩

theorem State.resetRelease_coreMove (s : State) : CoreMove .resetRelease s s.resetRelease := by
  rcases s.resetRelease_cases with ⟨mode, released⟩ | unchanged
  · rw [released]
    exact .release rfl mode ((State.enterMode_follows _ _).core.trans (State.react_follows _).core)
  · rw [unchanged]
    exact .nothing

theorem State.planValidation_coreMove (c : Instr) (s : State) : CoreMove c s s.planValidation := by
  unfold State.planValidation
  split
  case isFalse => exact .nothing
  case isTrue checking =>
    split
    next p checked =>
      have waits : ((s.writePlan p).enterMode .check).ctrl.wait = false := by rw [State.enterMode_ctrl]
      have mode : (s.planLoad p).ctrl.mode = .check := by
        rw [State.planLoad, State.react_ctrl_of_not_waiting waits, State.enterMode_mode]
      exact .load p checking checked mode ((State.enterMode_follows _ _).core.trans (State.react_follows _).core)
    next code _ =>
      exact .stand (CoreKeeps.planFault (P := s.core) ⟨fun _ _ h k => k.trans h⟩ s code s.core_refl)

theorem Peer.toLost_recordLaw {e : Peer} (present : e.presence = .present ∨ e.presence = .foreign ∨ e.presence = .unfit)
    (law : e.recordLaw) : e.toLost.recordLaw := by
  unfold Peer.recordLaw Peer.toLost at *
  rcases present with h | h | h <;> simpa [h] using law

theorem Peer.toAbsent_recordLaw (e : Peer) : e.toAbsent.recordLaw := iff_of_true rfl (.inl rfl)

theorem Peer.classifiable_known {e : Peer} (h : e.classifiable = true) : e.presence ≠ .absent := by
  intro absent
  rw [Peer.classifiable, absent] at h
  cases h

theorem State.peerClassification_coreMove (c : Instr) (s : State) (k : StationId) (chars : List Byte) :
    CoreMove c s (s.peerClassification k chars) := by
  unfold State.peerClassification
  split
  · exact .nothing
  · split
    case isTrue classifiable =>
      exact .peer k _ (Peer.classifiable_known classifiable) (fun _ => Peer.classified_recordLaw _ _ _) rfl
    case isFalse => exact .nothing

theorem State.peerLost_coreMove (c : Instr) (s : State) (k : StationId) : CoreMove c s (s.peerLost k) := by
  have lost (present : (s.peers.nth k).presence = .present ∨ (s.peers.nth k).presence = .foreign ∨
      (s.peers.nth k).presence = .unfit) : CoreMove c s (s.updPeer k Peer.toLost) :=
    .peer k _ (by rcases present with h | h | h <;> simp [h]) (Peer.toLost_recordLaw present) rfl
  unfold State.peerLost
  dsimp only
  split
  next h =>
    split
    · exact lost (.inl h)
    · exact .nothing
  next h =>
    split
    · exact lost (.inr (.inl h))
    · exact .nothing
  next h =>
    split
    · exact lost (.inr (.inr h))
    · exact .nothing
  all_goals exact .nothing

theorem State.peerAbsent_coreMove (c : Instr) (s : State) (k : StationId) : CoreMove c s (s.peerAbsent k) := by
  unfold State.peerAbsent
  dsimp only
  split
  next h =>
    split
    · exact .peer k _ (by simp [h]) (fun _ => Peer.toAbsent_recordLaw _) rfl
    · exact .nothing
  all_goals exact .nothing

theorem State.startHoldEnd_coreMove (c : Instr) (s : State) : CoreMove c s s.startHoldEnd := by
  unfold State.startHoldEnd
  split
  · exact .clock _ (State.core_refl _) fun law => Cycle.law_congr law rfl rfl rfl
  · exact .nothing

theorem State.unsetWaitEnd_coreMove (c : Instr) (s : State) : CoreMove c s s.unsetWaitEnd := by
  unfold State.unsetWaitEnd
  split
  · exact .nothing
  next p planned =>
    split
    case isFalse => exact .nothing
    case isTrue due =>
      have active : s.cycle.active ≠ 0 := by
        intro zero
        rw [zero] at due
        simp at due
      exact .clock _ (State.cycleOutput_follows _ _ _ _).core
        (by rw [planned]; exact fun law => Cycle.setClock_law law active)

theorem State.divergenceAdoption_coreMove (c : Instr) (s : State) : CoreMove c s s.divergenceAdoption := by
  unfold State.divergenceAdoption
  split
  next p q _ _ =>
    split
    · exact .clock _ (State.cycleOutput_follows _ _ _ _).core (Cycle.adoptDivergent_law q)
    · exact .nothing
  · exact .nothing

theorem State.patternLineChange_coreMove (c : Instr) (s : State) (line : PatternLine) (level : Bool) (held : Nat) :
    CoreMove c s (s.patternLineChange line level held) := by
  unfold State.patternLineChange State.judgePair
  dsimp only
  repeat' split
  · exact .stand ⟨rfl, rfl, rfl, rfl, rfl, rfl, rfl⟩
  · exact .stand ⟨rfl, rfl, rfl, rfl, rfl, rfl, rfl⟩
  · exact .clock _ ⟨rfl, rfl, rfl, rfl, rfl, rfl, rfl⟩ fun law => Cycle.law_congr law rfl rfl rfl

theorem State.requestedPatternChange_coreMove (c : Instr) (s : State) : CoreMove c s s.requestedPatternChange := by
  unfold State.requestedPatternChange
  split
  · exact .clock _ (State.core_refl _) fun law => Cycle.law_congr law rfl rfl rfl
  · exact .nothing

/-- Every command moves the core of the state in one of these ways. -/
theorem exec_coreMove {c : Instr} {s t : State} (e : exec c s = .next t) : CoreMove c s t := by
  cases hq : quiet c with
  | true => exact .stand (exec_quiet c s t hq e)
  | false =>
    cases hl : lineOnly c with
    | true => exact .line (exec_lineOnly c s t hl e) (exec_lineOnly_moves c s t hl e)
    | false =>
      cases c with
      | dominantRunEnd len edge => exact .boundary (.inl ⟨len, edge, rfl⟩) (exec_boundaryMove (.inl ⟨len, edge, rfl⟩) e)
      | joinWindowClose => exact .boundary (.inr (.inl rfl)) (exec_boundaryMove (.inr (.inl rfl)) e)
      | lineStuck run => exact .boundary (.inr (.inr ⟨run, rfl⟩)) (exec_boundaryMove (.inr (.inr ⟨run, rfl⟩)) e)
      | startUpReset cause => injection e with e; exact e ▸ s.startUpReset_coreMove cause
      | resetRelease => injection e with e; exact e ▸ s.resetRelease_coreMove
      | peerClassification k chars => injection e with e; exact e ▸ s.peerClassification_coreMove _ k chars
      | peerLost k => injection e with e; exact e ▸ s.peerLost_coreMove _ k
      | peerAbsent k => injection e with e; exact e ▸ s.peerAbsent_coreMove _ k
      | startHoldEnd => injection e with e; exact e ▸ s.startHoldEnd_coreMove _
      | unsetWaitEnd => injection e with e; exact e ▸ s.unsetWaitEnd_coreMove _
      | divergenceAdoption => injection e with e; exact e ▸ s.divergenceAdoption_coreMove _
      | patternLineChange line pin held =>
        injection e with e; exact e ▸ s.patternLineChange_coreMove _ line (activeLow pin) held
      | requestedPatternChange => injection e with e; exact e ▸ s.requestedPatternChange_coreMove _
      | planValidation => injection e with e; exact e ▸ s.planValidation_coreMove _
      | _ => simp [quiet, lineOnly] at hq hl

/-! ### The corridor position (R41) -/

/-- A plan that passes the content checks has cycle lengths above 0 (R40, R190). -/
theorem checkImage_cycleLength_pos {bytes : List Byte} {p : Plan} (h : checkImage bytes = .ok p) (i : Fin 3) :
    0 < p.cycleLength.nth i := by
  obtain ⟨m, content, rfl⟩ := checkImage_ok h
  obtain ⟨values, _⟩ := m.contentCode_none content
  have patterns : m.patternValues i = true := by
    unfold Image.valueRange at values
    simp only [Bool.and_eq_true] at values
    exact allFin_iff.mp values.1.1.1.1.1.1.2 i
  unfold Image.patternValues at patterns
  simp only [Bool.and_eq_true, within_iff] at patterns
  have long : 400 ≤ m.cycle i := patterns.1.1.1.1
  show 0 < (Table.tab m.cycle).nth i
  rw [Table.nth_tab]
  omega

theorem Cycle.law_of_core {s t : State} (core : s.core t) (law : Cycle.law s.plan s.cycle) : Cycle.law t.plan t.cycle := by
  obtain ⟨_, plan, _, _, cycle, _⟩ := core
  rw [plan, cycle]
  exact law

/-- In LOADING no plan is held (R172). -/
theorem State.loadSafe.plan_of_checking {s : State} (safe : s.loadSafe) (checking : s.checking = true) : s.plan = none := by
  unfold State.checking at checking
  simp only [Bool.and_eq_true, beq_iff_eq] at checking
  exact (safe.1 (.inr checking.1)).1

theorem BoundaryMove.cycleLaw {s t : State} (move : BoundaryMove s t) (law : Cycle.law s.plan s.cycle) :
    Cycle.law t.plan t.cycle := by
  cases move with
  | line rest _ => rw [rest]; exact law
  | boundary l heard age outcome _ taken => rw [taken]; exact State.frameBoundary_cycleLaw _ heard age outcome law

theorem CoreMove.cycleLaw {c : Instr} {s t : State} (move : CoreMove c s t) (safe : s.loadSafe)
    (law : Cycle.law s.plan s.cycle) : Cycle.law t.plan t.cycle := by
  cases move with
  | stand core => exact Cycle.law_of_core core law
  | line rest _ => rw [rest]; exact law
  | boundary _ move => exact move.cycleLaw law
  | peer k f _ _ rest => rw [rest]; exact law
  | clock d core step => exact Cycle.law_of_core core (step law)
  | startUp _ _ core => exact Cycle.law_of_core core ⟨nofun, fun _ => rfl, nofun⟩
  | release _ _ core => exact Cycle.law_of_core core (Cycle.law_congr law rfl rfl rfl)
  | load p checking checked _ core =>
    have unset : s.cycle.set = false := by
      cases set : s.cycle.set with
      | false => rfl
      | true =>
        obtain ⟨q, planned, _⟩ := law.2.2 set
        rw [safe.plan_of_checking checking] at planned
        cases planned
    refine Cycle.law_of_core core ⟨?_, law.2.1, fun set => absurd (set.symm.trans unset) nofun⟩
    rintro _ ⟨⟩
    exact checkImage_cycleLength_pos checked

/-! ### One tick -/

theorem State.tick_plan (s : State) : s.tick.plan = s.plan := by
  unfold State.tick; dsimp only; split <;> rfl

theorem State.tick_peers (s : State) : s.tick.peers = s.peers := by
  unfold State.tick; dsimp only; split <;> rfl

theorem State.tick_act (s : State) : s.tick.act = s.act := by
  unfold State.tick; dsimp only; split <;> rfl

theorem State.tick_mode (s : State) : s.tick.ctrl.mode = s.ctrl.mode := by
  unfold State.tick; dsimp only; split <;> rfl

theorem State.tick_lineMoves (s : State) : s.line.moves s.tick.line := by
  unfold State.tick; dsimp only; split
  · exact Line.moves_refl _
  · exact s.line.tick_moves

theorem State.tick_cycleLaw {s : State} (law : Cycle.law s.plan s.cycle) : Cycle.law s.tick.plan s.tick.cycle := by
  unfold State.tick; dsimp only; split
  · exact law
  · exact Cycle.law_congr law rfl rfl rfl

/-! ### Before the first entry to CHECK, and the OFF line (R18, R30, R172) -/

/-- DARK or LOADING: the first entry to CHECK has not been made yet. -/
def State.early (s : State) : Prop := s.ctrl.mode = .dark ∨ s.ctrl.mode = .loading

/-- While the line is OFF nothing is sent, no SILENT_FAULT is in force and every peer is ABSENT. -/
def State.offRests (s : State) : Prop :=
  s.line.st = .off → s.line.idleOff ∧ ∀ k, (s.peers.nth k).presence = .absent

theorem State.loadSafe_iff (s : State) :
    s.loadSafe ↔ (s.early → s.plan = none ∧ s.line.st = .off) ∧ s.offRests := by
  refine and_congr_right fun _ => forall_congr' fun off => ?_
  exact ⟨fun ⟨sending, ended, kind, absent⟩ => ⟨⟨off, sending, ended, kind⟩, absent⟩,
    fun ⟨⟨_, sending, ended, kind⟩, absent⟩ => ⟨sending, ended, kind, absent⟩⟩

/-- A line that moves, with peers that stand while it is OFF, rests while it is OFF. -/
theorem State.offRests.of_moves {s t : State} (rests : s.offRests) (line : s.line.moves t.line)
    (peers : s.line.st = .off → ∀ k, t.peers.nth k = s.peers.nth k) : t.offRests := by
  intro off
  have before := line.off off
  obtain ⟨idle, absent⟩ := rests before
  exact ⟨line.rest idle, fun k => by rw [peers before k]; exact absent k⟩

theorem State.offRests.of_core {s t : State} (rests : s.offRests) (core : s.core t) : t.offRests := by
  obtain ⟨_, _, line, peers, _⟩ := core
  exact rests.of_moves (by rw [line]; exact Line.moves_refl _) (fun _ k => by rw [peers])

/-- At a boundary of an OFF line no outcome is handed on (R17). -/
theorem State.frameBoundary_offPeers {s : State} {l : Line} (off : l.st = .off) (heard : Bool) (age : Nat)
    (outcome : StationId → Outcome) (k : StationId) :
    (State.frameBoundary { s with line := l } heard age outcome).peers.nth k = s.peers.nth k := by
  obtain ⟨_, _, _, _, _, _, _, _, _, _, peers, _⟩ := s.frameBoundary_taken l heard age outcome
  rw [peers k, if_pos off]

theorem State.frameBoundary_plan (s : State) (heard : Bool) (age : Nat) (outcome : StationId → Outcome) :
    (s.frameBoundary heard age outcome).plan = s.plan := by
  obtain ⟨_, _, _, _, _, _, _, _, _, _, _, _, _, _, _, _, _, _, plan, _⟩ := s.frameBoundary_taken s.line heard age outcome
  exact plan

theorem BoundaryMove.line_moves {s t : State} (move : BoundaryMove s t) : s.line.moves t.line := by
  cases move with
  | line _ move => exact move
  | boundary l heard age outcome move taken =>
    rw [taken]
    exact move.trans (State.frameBoundary_moves { s with line := l } heard age outcome)

theorem BoundaryMove.plan {s t : State} (move : BoundaryMove s t) : t.plan = s.plan := by
  cases move with
  | line rest _ => rw [rest]
  | boundary l heard age outcome _ taken => rw [taken, State.frameBoundary_plan]

theorem BoundaryMove.offRests {s t : State} (move : BoundaryMove s t) (rests : s.offRests) : t.offRests := by
  cases move with
  | line rest move => exact rests.of_moves move (fun _ k => by rw [rest])
  | boundary l heard age outcome move taken =>
    rw [taken]
    have after := State.frameBoundary_moves { s with line := l } heard age outcome
    intro off
    have offBefore : l.st = .off := after.off off
    obtain ⟨idle, absent⟩ := rests (move.off offBefore)
    exact ⟨after.rest (move.rest idle), fun k => by rw [State.frameBoundary_offPeers offBefore]; exact absent k⟩

theorem State.reset_offRests : State.reset.offRests :=
  fun _ => ⟨⟨rfl, rfl, rfl, rfl⟩, fun k => by rw [State.reset, Table.nth_tab]; rfl⟩

theorem CoreMove.offRests {c : Instr} {s t : State} (move : CoreMove c s t) (rests : s.offRests) :
    t.offRests := by
  cases move with
  | stand core => exact rests.of_core core
  | line rest move => exact rests.of_moves move (fun _ k => by rw [rest])
  | boundary _ move => exact move.offRests rests
  | peer k f known _ rest =>
    rw [rest]
    exact fun off => absurd ((rests off).2 k) known
  | clock d core _ => exact State.offRests.of_core (s := { s with cycle := d }) rests core
  | startUp _ _ core => exact State.reset_offRests.of_core core
  | release _ mode core =>
    exact State.offRests.of_core (s := s.released) (fun off => ⟨(rests off).1, (rests off).2⟩) core
  | load p checking _ _ core =>
    obtain ⟨_, _, line, _⟩ := core
    intro off
    rw [line] at off
    cases off

/-- A command that leads to DARK or LOADING leaves the mode as it is, or is start-up reset or its release. -/
theorem exec_early {c : Instr} {s t : State} (e : exec c s = .next t) (early : t.early) :
    t.ctrl.mode = s.ctrl.mode ∨ State.reset.core t ∨ s.ctrl.mode = .dark ∧ s.released.core t := by
  by_cases reset : ∃ cause, c = .startUpReset cause
  · obtain ⟨cause, rfl⟩ := reset
    obtain rfl : s.startUpReset cause = t := by injection e
    cases cause with
    | powerOn => exact .inr (.inl ⟨rfl, rfl, rfl, rfl, rfl, rfl, rfl⟩)
    | supplyFall => exact .inr (.inl ⟨rfl, rfl, rfl, rfl, rfl, rfl, rfl⟩)
    | resetLine held =>
      unfold State.startUpReset
      dsimp only
      split
      · exact .inr (.inl ⟨rfl, rfl, rfl, rfl, rfl, rfl, rfl⟩)
      · exact .inl rfl
    | supplyReached => exact .inl rfl
    | resetLineHigh held => exact .inl rfl
  · by_cases release : c = .resetRelease
    · subst release
      obtain rfl : s.resetRelease = t := by injection e
      rcases s.resetRelease_cases with ⟨mode, released⟩ | unchanged
      · rw [released]
        exact .inr (.inr ⟨mode, (State.enterMode_follows _ _).core.trans (State.react_follows _).core⟩)
      · rw [unchanged]
        exact .inl rfl
    · exact .inl (exec_mode_early c s t (fun cause k => reset ⟨cause, k⟩) release e early)

theorem State.core.early_law {s t : State} (core : s.core t) (h : s.plan = none ∧ s.line.st = .off) :
    t.plan = none ∧ t.line.st = .off := by
  obtain ⟨_, plan, line, _⟩ := core
  rw [plan, line]
  exact h

theorem Line.moves.off_of_rest {l m : Line} (move : l.moves m) (rest : l.idleOff) : m.st = .off := (move.rest rest).1

theorem CoreMove.early_law {c : Instr} {s t : State} (move : CoreMove c s t) (rest : s.line.idleOff)
    (planless : s.plan = none) (early : t.early) : t.plan = none ∧ t.line.st = .off := by
  cases move with
  | stand core => exact core.early_law ⟨planless, rest.1⟩
  | line rest' move => exact ⟨by rw [rest']; exact planless, move.off_of_rest rest⟩
  | boundary _ move => exact ⟨by rw [move.plan]; exact planless, move.line_moves.off_of_rest rest⟩
  | peer k f _ _ rest' => rw [rest']; exact ⟨planless, rest.1⟩
  | clock d core _ => exact core.early_law ⟨planless, rest.1⟩
  | startUp _ _ core => exact core.early_law ⟨rfl, rfl⟩
  | release _ _ core => exact core.early_law ⟨planless, rest.1⟩
  | load p _ _ mode _ =>
    unfold State.early at early
    rw [mode] at early
    rcases early with h | h <;> cases h

theorem exec_loadSafe {c : Instr} {s t : State} (e : exec c s = .next t) (safe : s.loadSafe) : t.loadSafe := by
  rw [State.loadSafe_iff] at safe ⊢
  obtain ⟨before, rests⟩ := safe
  have move := exec_coreMove e
  refine ⟨fun early => ?_, move.offRests rests⟩
  rcases exec_early e early with mode | core | ⟨dark, core⟩
  · have planless := before (by unfold State.early at early ⊢; rw [← mode]; exact early)
    exact move.early_law (rests planless.2).1 planless.1 early
  · exact core.early_law ⟨rfl, rfl⟩
  · exact core.early_law (before (.inl dark))

theorem State.tick_loadSafe {s : State} (safe : s.loadSafe) : s.tick.loadSafe := by
  rw [State.loadSafe_iff] at safe ⊢
  obtain ⟨before, rests⟩ := safe
  refine ⟨fun early => ?_, rests.of_moves s.tick_lineMoves fun _ k => by rw [s.tick_peers]⟩
  obtain ⟨planless, off⟩ := before (by unfold State.early at early ⊢; rw [← s.tick_mode]; exact early)
  exact ⟨by rw [s.tick_plan]; exact planless, s.tick_lineMoves.off_of_rest (rests off).1⟩

theorem step_keeps_loadSafe {s t : State} (safe : s.loadSafe) (run : step s = .next t) : t.loadSafe :=
  step_keeps (P := State.loadSafe) (fun _ _ _ queued => queued) (fun _ => State.tick_loadSafe)
    (fun _ _ _ e kept => exec_loadSafe e kept) safe run

/-- A property that ticks and commands keep while the load law holds is kept by every step. -/
theorem step_keeps_beside_loadSafe {P : State → Prop} (queue : ∀ (s : State) (l : List Instr) (n : Nat), P s →
      P { s with pending := l, freeCount := n })
    (tick : ∀ s, P s → P s.tick) (command : ∀ c s t, exec c s = .next t → s.loadSafe → P s → P t)
    {s t : State} (safe : s.loadSafe) (h : P s) (run : step s = .next t) : P t :=
  (step_keeps (P := fun u => u.loadSafe ∧ P u) (fun u l n kept => ⟨kept.1, queue u l n kept.2⟩)
    (fun u kept => ⟨State.tick_loadSafe kept.1, tick u kept.2⟩)
    (fun c u v e kept => ⟨exec_loadSafe e kept.1, command c u v e kept.1 kept.2⟩) ⟨safe, h⟩ run).2

/-- Settles O26: a tick leaves the clock and the plan, and each way in which a command moves them keeps the position in
range. -/
theorem cyclePositionStaysInRange : Obligations.CyclePositionStaysInRange :=
  fun _ _ safe range run => step_keeps_beside_loadSafe (P := fun u => Cycle.law u.plan u.cycle)
    (fun _ _ _ law => law) (fun _ => State.tick_cycleLaw)
    (fun _ _ _ e before law => (exec_coreMove e).cycleLaw before law) safe range run

/-! ### The driver (R11, R13), and the records of the peer table (R28) -/

theorem CoreMove.driveSafe {c : Instr} {s t : State} (move : CoreMove c s t) (safe : s.loadSafe) (drive : s.line.driveLaw) :
    t.line.driveLaw := by
  cases move with
  | stand core => rw [core.2.2.1]; exact drive
  | line _ move => exact move.drive drive
  | boundary _ move => exact move.line_moves.drive drive
  | peer k f _ _ rest => rw [rest]; exact drive
  | clock d core _ => rw [core.2.2.1]; exact drive
  | startUp _ _ core => rw [core.2.2.1]; exact ⟨nofun, nofun⟩
  | release _ _ core => rw [core.2.2.1]; exact drive
  | load p checking _ _ core =>
    rw [core.2.2.1]
    have loading : s.ctrl.mode = .loading := eq_of_beq (Bool.and_eq_true_iff.mp checking).1
    have off : s.line.st = .off := (safe.1 (.inr loading)).2
    obtain ⟨_, _, kind, _⟩ := safe.2 off
    refine ⟨fun driven => ?_, fun timed => absurd (kind.symm.trans timed) nofun⟩
    exact absurd (off.symm.trans (drive.1 driven)) nofun

/-- An entry's record law at every station. -/
def State.recordLaw (s : State) : Prop := ∀ k, (s.peers.nth k).recordLaw

theorem State.core.recordLaw {s t : State} (core : s.core t) (law : s.recordLaw) : t.recordLaw := by
  intro k
  rw [core.2.2.2.1]
  exact law k

/-- An entry changed by an `f` that keeps its record law. -/
theorem State.recordLaw.upd {s : State} (law : s.recordLaw) (k : StationId) (f : Peer → Peer)
    (kept : (s.peers.nth k).recordLaw → (f (s.peers.nth k)).recordLaw) (i : StationId) :
    ((s.peers.upd k f).nth i).recordLaw := by
  rw [Table.nth_upd]
  split
  next same => subst same; exact kept (law _)
  next => exact law i

theorem State.frameBoundary_recordLaw {s : State} (l : Line) (heard : Bool) (age : Nat) (outcome : StationId → Outcome)
    (law : s.recordLaw) : (State.frameBoundary { s with line := l } heard age outcome).recordLaw := by
  obtain ⟨_, _, _, _, _, _, _, _, _, _, peers, _⟩ := s.frameBoundary_taken l heard age outcome
  intro k
  rw [peers k]
  split
  · exact law k
  · exact Peer.evaluate_recordLaw _ _ _ (law k)

theorem BoundaryMove.recordLaw {s t : State} (move : BoundaryMove s t) (law : s.recordLaw) : t.recordLaw := by
  cases move with
  | line rest _ => rw [rest]; exact law
  | boundary l heard age outcome _ taken => rw [taken]; exact State.frameBoundary_recordLaw l heard age outcome law

theorem CoreMove.recordLaw {c : Instr} {s t : State} (move : CoreMove c s t) (safe : s.loadSafe) (law : s.recordLaw) :
    t.recordLaw := by
  cases move with
  | stand core => exact core.recordLaw law
  | line rest _ => rw [rest]; exact law
  | boundary _ move => exact move.recordLaw law
  | peer k f _ kept rest => rw [rest]; exact law.upd k f kept
  | clock d core _ => exact core.recordLaw law
  | startUp _ _ core =>
    refine core.recordLaw fun k => ?_
    rw [State.reset, Table.nth_tab]
    exact iff_of_true rfl (.inl rfl)
  | release _ _ core => exact core.recordLaw law
  | load p checking _ _ core =>
    have loading : s.ctrl.mode = .loading := eq_of_beq (Bool.and_eq_true_iff.mp checking).1
    have absent := (safe.2 (safe.1 (.inr loading)).2).2.2.2
    refine core.recordLaw fun k => law.upd p.station _ (fun kept => ?_) k
    exact iff_of_true (kept.mpr (.inl (absent _))) (.inr rfl)

/-- Settles O59: each of the three laws through the ways in which a command moves the line and the peer table. -/
theorem lineAndPeerLawsHold : Obligations.LineAndPeerLawsHold := by
  refine ⟨fun s t => step_keeps_loadSafe, fun s t safe drive run => ?drive, fun s t safe records run => ?records⟩
  case drive =>
    exact step_keeps_beside_loadSafe (P := fun u => u.line.driveLaw) (fun _ _ _ law => law)
      (fun u law => u.tick_lineMoves.drive law) (fun _ _ _ e before law => (exec_coreMove e).driveSafe before law)
      safe drive run
  case records =>
    exact step_keeps_beside_loadSafe (P := State.recordLaw) (fun _ _ _ law => law)
      (fun u law k => by rw [u.tick_peers]; exact law k)
      (fun _ _ _ e before law => (exec_coreMove e).recordLaw before law) safe records run

/-! ### ACT (R21) -/

theorem State.frameBoundary_act (s : State) (l : Line) (heard : Bool) (age : Nat) (outcome : StationId → Outcome) :
    (State.frameBoundary { s with line := l } heard age outcome).act = !s.act := by
  obtain ⟨_, _, _, _, _, _, _, act, _⟩ := s.frameBoundary_taken l heard age outcome
  exact act

/-- START_UP_RESET takes ACT low, or moves the supply and the RESET filter alone (R170, R194). -/
theorem State.startUpReset_act (s : State) (cause : ResetCause) :
    (s.startUpReset cause).act = false ∨
    s.startUpReset cause =
      { s with resetPin := (s.startUpReset cause).resetPin, supplyOk := (s.startUpReset cause).supplyOk } := by
  cases cause with
  | powerOn => exact .inl rfl
  | supplyFall => exact .inl rfl
  | resetLine held =>
    unfold State.startUpReset
    dsimp only
    split
    · exact .inl rfl
    · exact .inr rfl
  | supplyReached => exact .inr rfl
  | resetLineHigh held => exact .inr rfl

/-- No other command moves ACT. -/
theorem CoreMove.act {c : Instr} {s t : State} (move : CoreMove c s t) (notReset : ∀ cause, c ≠ .startUpReset cause)
    (other : ¬ takesBoundary c) : t.act = s.act := by
  cases move with
  | stand core => exact core.1
  | line rest _ => rw [rest]
  | boundary command _ => exact absurd command other
  | peer k f _ _ rest => rw [rest]; rfl
  | clock d core _ => exact core.1
  | startUp cause command _ => exact absurd command (notReset cause)
  | release _ _ core => exact core.1
  | load p _ _ _ core => exact core.1

/-- A boundary takes ACT to its other level, empties the line interface's items of the frame and takes the snapshot
(R7, R17, R24). -/
theorem BoundaryMove.act {s t : State} (move : BoundaryMove s t) :
    (t.act = (!s.act) ∧ t.line.pending = none ∧ (∀ k, t.line.outcomes.nth k = none) ∧
      t.line.snapshot = t.snapshotNow) ∨ t = { s with line := t.line } := by
  cases move with
  | line rest _ => exact .inr rest
  | boundary l heard age outcome _ taken =>
    obtain ⟨line, _, _, pending, _, _, outcomes, act, _⟩ := s.frameBoundary_taken l heard age outcome
    rw [← taken] at line pending outcomes act
    exact .inl ⟨act, pending, outcomes, congrArg Line.snapshot line⟩

theorem State.idle_act (s : State) : s.idle.act = s.act := by
  rcases s.idle_cases with tick | ⟨e, n, queued⟩
  · rw [tick, s.tick_act]
  · rw [queued]

/-- Settles O58: START_UP_RESET by its causes, the three commands that can take a boundary by whether they do, and every
other command by how it moves the core of the state. -/
theorem actTogglesAtBoundariesAlone : Obligations.ActTogglesAtBoundariesAlone := by
  refine ⟨rfl, fun s t cause e => ?reset, fun c s t e notReset notRun notClose notStuck => ?other,
    fun c s t e command => (exec_boundaryMove command e).act, State.idle_act⟩
  case reset =>
    obtain rfl : s.startUpReset cause = t := by injection e
    exact s.startUpReset_act cause
  case other =>
    refine (exec_coreMove e).act notReset ?_
    rintro (⟨len, edge, command⟩ | command | ⟨run, command⟩)
    · exact notRun len edge command
    · exact notClose command
    · exact notStuck run command

end Sys2Proof.Machine
end

section
/-! PROOFS. The laws of the groups: regular records (R60, R73), conflicting groups apart (R66), and the force input (R59, R75 to R79). -/

namespace Sys2Proof.Machine

/-! ### The group table after each move -/

theorem State.follow_nth (s : State) (g : GroupId) :
    s.follow.groups.nth g = s.joinCallers.judgeGreen g (s.groups.nth g) := Table.nth_tab _ g

/-- What calls and timers follow leaves of a group record: its state and its held request (R71, R73). -/
theorem State.follow_stands (s : State) (g : GroupId) :
    (s.follow.groups.nth g).state = (s.groups.nth g).state ∧ (s.follow.groups.nth g).held = (s.groups.nth g).held := by
  rw [s.follow_nth]
  unfold State.judgeGreen
  dsimp only
  repeat' split
  all_goals exact ⟨rfl, rfl⟩

theorem State.request_nth (s : State) (t : StageId) (g : GroupId) : (s.request t).groups.nth g =
    if s.used g then
      if BitSet.has (s.stageGroups t) g then (s.groups.nth g).openRequest else (s.groups.nth g).closeRequest
    else s.groups.nth g := Table.nth_tab _ g

theorem State.forceAll_nth (s : State) (f : Force) (g : GroupId) : (s.forceAll f).groups.nth g =
    if s.plan.isNone || s.used g then (s.groups.nth g).force f.groupState else s.groups.nth g := Table.nth_tab _ g

theorem State.updGroup_nth (s : State) (g i : GroupId) (f : Group → Group) : (s.updGroup g f).groups.nth i =
    if g = i then f (s.groups.nth g) else s.groups.nth i := Table.nth_upd ..

theorem State.enterGreen_nth (s : State) (g i : GroupId) : (s.enterGreen g).groups.nth i =
    if g = i then (s.groups.nth g).toGreen (s.gapLoad g) else s.groups.nth i := Table.nth_upd ..

/-- Another group is left by a grant, and the granted one is in PREPARE or GREEN with nothing held (R66). -/
theorem State.leaveRed_nth (s : State) (g i : GroupId) : (s.leaveRed g).groups.nth i =
    if g = i then
      if 0 < (s.groupPlan g).tPRE then (s.groups.nth g).toPrepare
      else ({ s.groups.nth g with held := .none } : Group).toGreen (s.gapLoad g)
    else s.groups.nth i := by
  unfold State.leaveRed
  split
  case isTrue => exact Table.nth_upd ..
  case isFalse =>
    rw [State.enterGreen_nth]
    by_cases same : g = i
    · subst same
      rw [if_pos rfl, if_pos rfl]
      exact congrArg (Group.toGreen (s.gapLoad g)) (Table.nth_upd_self ..)
    · rw [if_neg same, if_neg same]
      exact Table.nth_upd_ne _ _ same

theorem State.tick_nth (s : State) (g : GroupId) : s.tick.groups.nth g = s.tickGroup g := by
  unfold State.tick
  dsimp only
  split <;> exact Table.nth_tab _ g

theorem State.resetAll_nth (s : State) (g : GroupId) : s.resetAll.groups.nth g = Group.reset := Table.nth_tab _ g

/-! ### Regular records (R60, R73) -/

theorem Group.force_regular (st : GState) (r : Group) : (r.force st).regular := r.clearGreen_regular st

theorem Group.toClearing_regular (r : Group) : r.toClearing.regular := r.clearGreen_regular .clearing

theorem Group.toPrepare_regular {r : Group} (red : r.state = .red) (h : r.regular) : r.toPrepare.regular := by
  obtain ⟨_, _, clear, _⟩ := h
  have c := clear (by rw [red]; nofun)
  exact ⟨nofun, nofun, fun _ => c, fun done => absurd (c.2.2.2.2.2.symm.trans done) nofun⟩

theorem Group.toRed_regular {r : Group} (clearing : r.state = .clearing) (h : r.regular) : r.toRed.regular := by
  obtain ⟨_, close, clear, _⟩ := h
  have c := clear (by rw [clearing]; nofun)
  refine ⟨fun _ => .inl rfl, fun held => ?_, fun _ => c, fun done => absurd (c.2.2.2.2.2.symm.trans done) nofun⟩
  have old := close held
  rw [clearing] at old
  rcases old with k | k <;> cases k

theorem Group.minGreen_regular {r : Group} (timed : Bool) (green : r.state = .green) (h : r.regular) :
    (r.minGreen timed).regular := by
  obtain ⟨opened, close, _, done⟩ := h
  unfold Group.minGreen
  dsimp only
  split
  · exact Group.toClearing_regular _
  · exact ⟨opened, close, fun other => absurd green other, fun k => ⟨rfl, (done k).2⟩⟩

theorem Group.reset_regular : Group.reset.regular := ⟨nofun, nofun, fun _ => ⟨rfl, rfl, rfl, rfl, rfl, rfl⟩, nofun⟩

/-- A tick moves the timers of a GREEN group alone (R60, R71, R73). -/
theorem State.tickGroup_regular (s : State) (g : GroupId) (h : (s.groups.nth g).regular) : (s.tickGroup g).regular := by
  obtain ⟨opened, close, clear, done⟩ := h
  refine ⟨opened, close, fun other => ?_, done⟩
  have notGreen : ((s.groups.nth g).state == .green) = false := beq_eq_false_iff_ne.mpr other
  unfold State.tickGroup
  dsimp only
  rw [notGreen]
  simpa using clear other

theorem groupsRegular_keeps : GroupTimesKeep State.groupsRegular where
  congr s t groups _ h g := by rw [groups]; exact h g
  follow s h g := by rw [s.follow_nth]; exact State.judgeGreen_regular _ g _ (h g)
  request s t h g := by
    rw [s.request_nth]
    split
    · split
      · exact Group.openRequest_regular _ (h g)
      · exact Group.closeRequest_regular _ (h g)
    · exact h g
  leaveRed s g clear h i := by
    rw [s.leaveRed_nth]
    split
    · split
      · exact Group.toPrepare_regular (State.clearToOpen_red clear).2.1 (h g)
      · exact Group.toGreen_regular _ _
    · exact h i
  force s f h g := by
    rw [s.forceAll_nth]
    split
    · exact Group.force_regular _ _
    · exact h g
  prepareEnd s g _ h := State.enterGreen_regular s g h
  minGreen s g due h := by
    unfold State.minGreenDue at due
    simp only [Bool.and_eq_true, beq_iff_eq] at due
    exact s.updGroup_regular g _ h (Group.minGreen_regular _ due.1.1 (h g))
  gapOut s g due h := by
    unfold State.gapDue at due
    simp only [Bool.and_eq_true, beq_iff_eq] at due
    obtain ⟨opened, close, _, done⟩ := h g
    exact s.updGroup_regular g _ h ⟨opened, close, fun other => absurd due.1.1.1.1 other, done⟩
  maxDone s g due h := by
    unfold State.maxDue at due
    simp only [Bool.and_eq_true, beq_iff_eq] at due
    obtain ⟨opened, close, _, _⟩ := h g
    exact s.updGroup_regular g _ h
      ⟨opened, close, fun other => absurd due.1.1.1.1 other, fun _ => ⟨due.2, due.1.1.1.2⟩⟩
  clearingEnd s g due h := by
    unfold State.clearingDue at due
    simp only [Bool.and_eq_true, beq_iff_eq] at due
    exact s.updGroup_regular g _ h (Group.toRed_regular due.1 (h g))
  reset s g := by rw [s.resetAll_nth]; exact Group.reset_regular
  tick s h g := by rw [s.tick_nth]; exact s.tickGroup_regular g (h g)

/-- Settles O31: every move of a group record keeps it regular, and the load leaves the group table. -/
theorem groupRecordsStayRegular : Obligations.GroupRecordsStayRegular :=
  fun _ _ regular run => step_keeps (P := State.groupsRegular) (fun _ _ _ queued => queued) groupsRegular_keeps.tick
    (fun c s t e kept => groupsRegular_keeps.exec c s t (fun _ _ _ => kept) e kept) regular run

/-! ### Conflicting groups (R66) -/

/-- A plan that passes the content checks has a symmetric conflict matrix, no group in conflict with itself (R63, R190). -/
theorem checkImage_conflicts {bytes : List Byte} {p : Plan} (h : checkImage bytes = .ok p) {a b : GroupId}
    (conflict : BitSet.has (p.conflicts.nth a) b = true) : BitSet.has (p.conflicts.nth b) a = true ∧ a ≠ b := by
  obtain ⟨m, content, rfl⟩ := checkImage_ok h
  obtain ⟨_, matrix⟩ := m.contentCode_none content
  have row (g : GroupId) : (m.plan.conflicts).nth g = m.conflictRow g := Table.nth_tab _ g
  rw [row] at conflict
  have pair := allFin_iff.mp (allFin_iff.mp matrix a) b
  have named : m.conflict a b = true := conflict
  rw [named] at pair
  simp only [Bool.not_true, Bool.false_or, Bool.and_eq_true, bne_iff_ne] at pair
  rw [row]
  exact ⟨pair.1.1.1, pair.1.1.2⟩

theorem Group.minGreen_rightOfWay (timed : Bool) {r : Group} (green : r.state = .green) :
    (r.minGreen timed).state.rightOfWay = true → r.state.rightOfWay = true :=
  fun _ => by rw [green]; rfl

theorem State.conflictSafe_upd {s : State} {g : GroupId} {f : Group → Group}
    (kept : (f (s.groups.nth g)).state.rightOfWay = true → (s.groups.nth g).state.rightOfWay = true)
    (h : s.conflictSafe) : (s.updGroup g f).conflictSafe :=
  State.conflictSafe_shrink (s := s) rfl (fun i => rightOfWay_upd s g f i kept) h

theorem Force.groupState_rightOfWay (f : Force) : f.groupState.rightOfWay = false := by cases f <;> rfl

/-- Without a plan and with every group in RED, FLASHING or DARK, the law of conflicting groups holds. -/
theorem State.conflictSafe_of_planless {s : State} (planless : s.plan = none)
    (closed : ∀ g, (s.groups.nth g).state.rightOfWay = false) : s.conflictSafe := by
  have none (a b : GroupId) : s.conflicts a b = false := by rw [State.conflicts, planless]
  exact ⟨fun a b conflict => absurd (none a b ▸ conflict) nofun, fun _ => closed,
    fun a b conflict => absurd (none a b ▸ conflict) nofun⟩

theorem conflictSafe_keeps : GroupTimesKeep State.conflictSafe where
  congr s t groups plan h := State.conflictSafe_shrink plan (fun g => by rw [groups]; exact id) h
  follow s h := State.conflictSafe_shrink (State.follow_plan s) (fun g => by rw [s.follow_state]; exact id) h
  request s t h := by
    refine State.conflictSafe_shrink (s := s) rfl (fun g => ?_) h
    rw [s.request_nth]
    split
    · split
      · rw [Group.openRequest_state]; exact id
      · exact Group.closeRequest_rightOfWay _
    · exact id
  leaveRed s g clear h := by
    refine State.conflictSafe_grow g (State.leaveRed_plan s g) clear (fun i other => ?_) h
    rw [s.leaveRed_nth, if_neg (Ne.symm other)]
    exact id
  force s f h := by
    refine State.conflictSafe_shrink (s := s) rfl (fun g => ?_) h
    rw [s.forceAll_nth]
    split
    · exact fun way => absurd (f.groupState_rightOfWay ▸ way) nofun
    · exact id
  prepareEnd s g due h := by
    unfold State.prepareDue at due
    simp only [Bool.and_eq_true, beq_iff_eq] at due
    exact State.conflictSafe_upd (f := Group.toGreen (s.gapLoad g)) (fun _ => by rw [due.1]; rfl) h
  minGreen s g due h := by
    unfold State.minGreenDue at due
    simp only [Bool.and_eq_true, beq_iff_eq] at due
    exact State.conflictSafe_upd (Group.minGreen_rightOfWay _ due.1.1) h
  gapOut s g _ h := State.conflictSafe_upd id h
  maxDone s g _ h := State.conflictSafe_upd id h
  clearingEnd s g _ h := State.conflictSafe_upd nofun h
  reset s := State.conflictSafe_of_planless rfl fun g => by rw [s.resetAll_nth]; rfl
  tick s h := State.conflictSafe_shrink s.tick_plan (fun g => by rw [s.tick_nth]; exact id) h

/-- The load writes a symmetric matrix while no group has the right of way. -/
theorem State.writePlan_conflictSafe {s : State} {p : Plan} (planless : s.plan = none)
    (checked : checkImage s.planRead.buffer = .ok p) (h : s.conflictSafe) : (s.writePlan p).conflictSafe :=
  ⟨fun _ _ conflict => checkImage_conflicts checked conflict, nofun,
    fun a _ _ ways => absurd ((h.2.1 planless a).symm.trans ways.1) nofun⟩

/-- Settles O32: a group gains the right of way only where it is clear to open, so with its conflicting groups in RED. -/
theorem conflictingGroupsStayApart : Obligations.ConflictingGroupsStayApart :=
  fun _ _ safe apart run => step_keeps_beside_loadSafe (P := State.conflictSafe) (fun _ _ _ queued => queued)
    conflictSafe_keeps.tick (fun c s t e before kept => conflictSafe_keeps.exec c s t
      (fun _ checking checked => State.writePlan_conflictSafe (before.plan_of_checking checking) checked kept) e kept)
    safe apart run

/-! ### The force input (R59, R75 to R79) -/

/-- Neither DARK nor FLASHING. -/
def GState.street (st : GState) : Prop := st ≠ .dark ∧ st ≠ .flashing

/-- Within one mode, a group that keeps its state and its held request, or moves between states other than DARK and
FLASHING, keeps the law of the force input. -/
theorem State.forceSafe_of_moves {s t : State} (plan : t.plan = s.plan) (mode : t.ctrl.mode = s.ctrl.mode)
    (moves : ∀ g, (t.groups.nth g).state = (s.groups.nth g).state ∧ (t.groups.nth g).held = (s.groups.nth g).held ∨
      (s.groups.nth g).state.street ∧ (t.groups.nth g).state.street) (h : s.forceSafe) : t.forceSafe := by
  intro g
  have groupPlan : t.groupPlan g = s.groupPlan g := by unfold State.groupPlan; rw [plan]
  rw [plan, mode, groupPlan]
  rcases moves g with ⟨state, held⟩ | ⟨old, new⟩
  · rw [state, held]
    exact h g
  · obtain ⟨unused, other⟩ := h g
    refine ⟨fun planned kind => absurd (unused planned kind) old.1, fun used => ?_⟩
    obtain ⟨dark, flashing, _⟩ := other used
    exact ⟨fun force => absurd (dark force).1 old.1, fun force => absurd (flashing force).1 old.2, fun _ => new⟩

/-- One group moves between states other than DARK and FLASHING. -/
theorem State.forceSafe_upd {s : State} {g : GroupId} {f : Group → Group} (old : (s.groups.nth g).state.street)
    (new : (f (s.groups.nth g)).state.street) (h : s.forceSafe) : (s.updGroup g f).forceSafe := by
  refine State.forceSafe_of_moves (s := s) rfl rfl (fun i => ?_) h
  rw [s.updGroup_nth]
  split
  next same => subst same; exact .inr ⟨old, new⟩
  next => exact .inl ⟨rfl, rfl⟩

theorem Group.openRequest_moves (r : Group) :
    r.openRequest.state = r.state ∧ r.openRequest.held = r.held ∨ r.state.street ∧ r.openRequest.state.street := by
  have street (other : r.state.street) : r.state.street ∧ r.openRequest.state.street := by
    rw [r.openRequest_state]; exact ⟨other, other⟩
  cases state : r.state with
  | red | prepare | green | clearing => exact .inr (state ▸ street (by rw [state]; exact ⟨nofun, nofun⟩))
  | flashing | dark => left; unfold Group.openRequest; rw [state]; exact ⟨state, rfl⟩

theorem Group.closeRequest_moves (r : Group) :
    r.closeRequest.state = r.state ∧ r.closeRequest.held = r.held ∨ r.state.street ∧ r.closeRequest.state.street := by
  cases state : r.state with
  | red | prepare | green | clearing =>
    right
    unfold Group.closeRequest
    rw [state]
    refine ⟨⟨nofun, nofun⟩, ?_⟩
    repeat' split
    all_goals first | (rw [state]; exact ⟨nofun, nofun⟩) | exact ⟨nofun, nofun⟩
  | flashing | dark => left; unfold Group.closeRequest; rw [state]; exact ⟨state, rfl⟩

theorem State.used_iff (s : State) (g : GroupId) : s.used g = true ↔ (s.groupPlan g).kind ≠ .unused := by
  rw [State.used, Bool.not_eq_true', beq_eq_false_iff_ne]

theorem Group.force_state (st : GState) (r : Group) : (r.force st).state = st ∧ (r.force st).held = .none := ⟨rfl, rfl⟩

/-- A change of the force input puts every group but an UNUSED one of a loaded plan in the state it asks for. -/
theorem State.forceAll_forceSafe {s : State} {old : State} (plan : s.plan = old.plan) (groups : s.groups = old.groups)
    (h : old.forceSafe) : (s.forceAll s.ctrl.mode.force).forceSafe := by
  intro g
  have groupPlan : s.groupPlan g = old.groupPlan g := by unfold State.groupPlan; rw [plan]
  have kind : (s.forceAll s.ctrl.mode.force).groupPlan g = s.groupPlan g := rfl
  rw [kind, s.forceAll_nth]
  refine ⟨fun planned unused => ?_, fun taken => ?_⟩
  · have notUsed : ¬ (s.plan.isNone || s.used g) = true := by
      rw [Bool.or_eq_true, Option.isNone_iff_eq_none, s.used_iff]
      rintro (planless | used)
      · exact planned planless
      · exact used unused
    rw [if_neg notUsed, groups]
    exact (h g).1 (plan ▸ planned) (groupPlan ▸ unused)
  · have used : (s.plan.isNone || s.used g) = true := by
      rw [Bool.or_eq_true, Option.isNone_iff_eq_none, s.used_iff]
      exact taken
    rw [if_pos used]
    have mode : (s.forceAll s.ctrl.mode.force).ctrl.mode = s.ctrl.mode := rfl
    obtain ⟨state, held⟩ := Group.force_state s.ctrl.mode.force.groupState (s.groups.nth g)
    rw [mode, state, held]
    cases s.ctrl.mode.force with
    | none => exact ⟨nofun, nofun, fun _ => ⟨nofun, nofun⟩⟩
    | flashing => exact ⟨nofun, fun _ => ⟨rfl, rfl⟩, nofun⟩
    | dark => exact ⟨fun _ => ⟨rfl, rfl⟩, nofun, nofun⟩

/-- The law of the force input looks at groups, plan and force input alone. -/
theorem State.forceSafe_congr {s t : State} (groups : t.groups = s.groups) (plan : t.plan = s.plan)
    (force : t.ctrl.mode.force = s.ctrl.mode.force) (h : s.forceSafe) : t.forceSafe := by
  intro g
  have groupPlan : t.groupPlan g = s.groupPlan g := by unfold State.groupPlan; rw [plan]
  rw [plan, force, groupPlan, groups]
  exact h g

theorem forceSafe_moves : GroupMoves State.forceSafe where
  congr s t groups plan mode h := State.forceSafe_congr groups plan (by rw [mode]) h
  follow s h := State.forceSafe_of_moves (State.follow_plan s) rfl (fun g => .inl (s.follow_stands g)) h
  request s t h := by
    refine State.forceSafe_of_moves (s := s) rfl rfl (fun g => ?_) h
    rw [s.request_nth]
    split
    · split
      · exact Group.openRequest_moves _
      · exact Group.closeRequest_moves _
    · exact .inl ⟨rfl, rfl⟩
  leaveRed s g clear h := by
    have red := (State.clearToOpen_red clear).2.1
    refine State.forceSafe_of_moves (State.leaveRed_plan s g) (by rw [State.leaveRed_ctrl]) (fun i => ?_) h
    rw [s.leaveRed_nth]
    split
    next same =>
      subst same
      rw [red]
      right
      split <;> exact ⟨⟨nofun, nofun⟩, nofun, nofun⟩
    next => exact .inl ⟨rfl, rfl⟩

theorem forceSafe_keeps : GroupModeTimesKeep State.forceSafe where
  toGroupMoves := forceSafe_moves
  enter s m h := by
    refine forceSafe_moves.enterMode s m ?_
    unfold State.forceChange
    split
    next same => exact State.forceSafe_congr (s := s) rfl rfl same h
    next => exact State.forceAll_forceSafe (old := s) rfl rfl h
  prepareEnd s g due h := by
    unfold State.prepareDue at due
    simp only [Bool.and_eq_true, beq_iff_eq] at due
    exact State.forceSafe_congr (s := s.updGroup g (Group.toGreen (s.gapLoad g))) rfl rfl rfl
      (State.forceSafe_upd (by rw [due.1]; exact ⟨nofun, nofun⟩) ⟨nofun, nofun⟩ h)
  minGreen s g due h := by
    unfold State.minGreenDue at due
    simp only [Bool.and_eq_true, beq_iff_eq] at due
    refine State.forceSafe_upd (by rw [due.1.1]; exact ⟨nofun, nofun⟩) ?_ h
    unfold Group.minGreen
    dsimp only
    split
    · exact ⟨nofun, nofun⟩
    · dsimp only
      rw [due.1.1]
      exact ⟨nofun, nofun⟩
  gapOut s g due h := by
    unfold State.gapDue at due
    simp only [Bool.and_eq_true, beq_iff_eq] at due
    have green : (s.groups.nth g).state.street := by rw [due.1.1.1.1]; exact ⟨nofun, nofun⟩
    exact State.forceSafe_upd green green h
  maxDone s g due h := by
    unfold State.maxDue at due
    simp only [Bool.and_eq_true, beq_iff_eq] at due
    have green : (s.groups.nth g).state.street := by rw [due.1.1.1.1]; exact ⟨nofun, nofun⟩
    exact State.forceSafe_upd green green h
  clearingEnd s g due h := by
    unfold State.clearingDue at due
    simp only [Bool.and_eq_true, beq_iff_eq] at due
    exact State.forceSafe_upd (by rw [due.1]; exact ⟨nofun, nofun⟩) ⟨nofun, nofun⟩ h
  reset s g := by
    rw [s.resetAll_nth]
    exact ⟨fun _ _ => rfl, fun _ => ⟨fun _ => ⟨rfl, rfl⟩, nofun, nofun⟩⟩
  tick s h := State.forceSafe_of_moves s.tick_plan s.tick_mode (fun g => .inl (by rw [s.tick_nth]; exact ⟨rfl, rfl⟩)) h

/-- The load leaves the groups, all dark in LOADING, until the entry to CHECK. -/
theorem State.writePlan_forceSafe {s : State} (p : Plan) (planless : s.plan = none) (loading : s.ctrl.mode = .loading)
    (h : s.forceSafe) : (s.writePlan p).forceSafe := by
  intro g
  have force : s.ctrl.mode.force = .dark := by rw [loading]; rfl
  have mode : (s.writePlan p).ctrl.mode.force = .dark := force
  have dark := ((h g).2 (.inl planless)).1 force
  rw [mode]
  exact ⟨fun _ _ => dark.1, fun _ => ⟨fun _ => dark, nofun, nofun⟩⟩

theorem step_keeps_forceSafe {s t : State} (safe : s.loadSafe) (h : s.forceSafe) (run : step s = .next t) : t.forceSafe :=
  step_keeps_beside_loadSafe (P := State.forceSafe) (fun _ _ _ queued => queued) forceSafe_keeps.tick
    (fun c u v e before kept => forceSafe_keeps.exec c u v (fun p checking _ =>
      State.writePlan_forceSafe p (before.plan_of_checking checking)
        (eq_of_beq (Bool.and_eq_true_iff.mp checking).1) kept) e kept) safe h run

end Sys2Proof.Machine
end

section
/-! PROOFS. The laws of the claim lists (R130, R132) and of the service stage (R139, R141), and those of the sequencer and the mode timer (R85, R174, R176). -/

namespace Sys2Proof.Machine

/-! ### The claim lists (R130, R132) -/

/-- A raised claim is listed where there is room for it and its route is not listed yet (R130). -/
theorem State.withRaised_claimsSafe {s : State} {o : OwnClaim} (room : s.claims.own.length < 2)
    (fresh : ∀ x ∈ s.claims.own, x.route ≠ o.route) (h : s.claimsSafe) : (s.withRaised o).claimsSafe := by
  obtain ⟨_, routes, entries, ids⟩ := h
  refine ⟨?_, ?_, entries, ids⟩
  · show (s.claims.own ++ [o]).length ≤ 2
    rw [List.length_append, List.length_singleton]
    omega
  · show ((s.claims.own ++ [o]).map (·.route)).Nodup
    rw [List.map_append, List.map_singleton]
    refine List.nodup_append.mpr ⟨routes, List.pairwise_singleton _ _, fun r listed r' only => ?_⟩
    obtain ⟨x, member, rfl⟩ := List.mem_map.mp listed
    rw [List.mem_singleton.mp only]
    exact fresh x member

theorem State.claimsSafe_congr {s t : State} (own : t.claims.own = s.claims.own) (ids : t.claimIds = s.claimIds)
    (h : s.claimsSafe) : t.claimsSafe := by
  rw [State.claimsSafe_iff] at h ⊢
  rw [own, ids]
  exact h

theorem State.claimEdge_claimsSafe {s : State} (n : RouteId) (q : Priority) (h : s.claimsSafe) :
    (s.claimEdge n q).claimsSafe := by
  rcases s.claimEdge_cases n q with ⟨unchanged, _⟩ | ⟨p, _, room, fresh, raised⟩ | refused
  · rw [unchanged]
    exact h
  · rw [raised]
    exact State.claimsSafe_congr (State.arbitrate_claims_own _) (State.arbitrate_ids _)
      (State.offerOwn_claimsSafe _ p _ (State.withRaised_claimsSafe room fresh h))
  · rw [refused]
    exact h

theorem State.erase_claimsSafe {s : State} (f : ClaimEntry → Bool) (h : s.claimsSafe) :
    (s.withClaimTable (s.claims.table.eraseP f)).claimsSafe := by
  obtain ⟨own, routes, entries, ids⟩ := h
  have sub := List.eraseP_sublist (p := f) (l := s.claims.table)
  exact ⟨own, routes, Nat.le_trans sub.length_le entries, ids.sublist (sub.map _)⟩

theorem claimsSafe_keeps : ClaimKeeps State.claimsSafe where
  congr _ _ own ids h := State.claimsSafe_congr own ids h
  claimEdge _ n q h := State.claimEdge_claimsSafe n q h
  claimSteps s p h := s.claimSteps_claimsSafe p h
  withdraw _ _ _ h := State.erase_claimsSafe _ h

theorem State.resetAll_claimsSafe (s : State) : s.resetAll.claimsSafe :=
  ⟨Nat.zero_le _, List.nodup_nil, Nat.zero_le _, List.nodup_nil⟩

/-- A tick moves the timers of the claims and leaves routes and identities. -/
theorem State.tick_claims (s : State) : s.tick.claims = s.claims ∨ s.tick.claims = s.claims.tick := by
  unfold State.tick; dsimp only; split
  · exact .inl rfl
  · exact .inr rfl

theorem State.tick_claimsSafe {s : State} (h : s.claimsSafe) : s.tick.claimsSafe := by
  unfold State.claimsSafe at h ⊢
  rcases s.tick_claims with e | e <;> rw [e]
  · exact h
  · unfold Claims.tick
    simp only [List.length_map, List.map_map]
    exact h

/-- Settles O41: raising a claim, the claim unit's part of a boundary and a withdrawal keep the bounds, and every other
step leaves own claims and identities. -/
theorem claimListsStayBounded : Obligations.ClaimListsStayBounded :=
  fun _ _ bounded run => step_keeps (P := State.claimsSafe) (fun _ _ _ queued => queued) (fun _ => State.tick_claimsSafe)
    (fun c s t e kept => claimsSafe_keeps.exec State.resetAll_claimsSafe c s t e kept) bounded run

/-! ### The service stage (R139, R141) -/

theorem State.serviceTable_congr {s t : State} (mode : t.ctrl.mode = s.ctrl.mode) (table : t.claims.table = s.claims.table)
    (service : t.seq.service = s.seq.service) (h : s.serviceTable) : t.serviceTable := by
  unfold State.serviceTable
  rw [mode, table, service]
  exact h

/-- Every SERVING entry of the table stands while none is lost. -/
theorem serving_of_not_lost {t u : List ClaimEntry} (kept : servingLost t u = false) {e : ClaimEntry} (member : e ∈ t)
    (serving : e.state = .serving) : ∃ x ∈ u, x.state = .serving := by
  have listed : (e.origin, e.serial) ∈ servingIds t :=
    List.mem_map.mpr ⟨e, List.mem_filter.mpr ⟨member, by rw [serving]; rfl⟩, rfl⟩
  have stands := List.any_eq_false.mp kept _ listed
  rw [Bool.not_eq_true, Bool.not_eq_false', List.contains_iff_mem] at stands
  obtain ⟨x, filtered, _⟩ := List.mem_map.mp stands
  obtain ⟨member', serving'⟩ := List.mem_filter.mp filtered
  exact ⟨x, member', eq_of_beq serving'⟩

/-- Within the SERVING entries of the old table, some of which still stand, the law of the service stage stands. -/
theorem State.serviceTable_within {s u : State} (mode : u.ctrl.mode = s.ctrl.mode)
    (service : u.seq.service = s.seq.service) (within : servesWithin s.claims.table u.claims.table)
    (stands : ∀ e ∈ s.claims.table, e.state = .serving → ∃ x ∈ u.claims.table, x.state = .serving)
    (h : s.serviceTable) : u.serviceTable := by
  obtain ⟨stage, some_, outside⟩ := h
  refine ⟨?_, fun asserted => ?_, fun other e member serving => ?_⟩
  · rw [service]
    exact oneStage_within stage within
  · obtain ⟨e, member, serving⟩ := some_ (service ▸ asserted)
    exact stands e member serving
  · obtain ⟨x, member', serving', _⟩ := within e member serving
    exact outside (mode ▸ other) x member' serving'

theorem serviceTable_keeps : ServeKeeps State.serviceTable where
  congr _ _ mode table service h := State.serviceTable_congr mode table service h
  enterMode s m h := by
    obtain ⟨u, claims, _, claims', ctrl, seq⟩ := s.enterMode_arbitrates m
    refine State.serviceTable_congr (s := u.arbitrate) (by rw [ctrl]) (by rw [claims']) (by rw [seq]) ?_
    exact State.arbitrate_serviceTable u (claims ▸ h.1)
  arbitrated s u within h := State.arbitrate_serviceTable u (oneStage_within h.1 within)
  boundary s u mode service within kept h :=
    State.serviceTable_within mode service within (fun _ member serving => serving_of_not_lost kept member serving) h
  tabled s u mode service within back h := by
    refine State.serviceTable_within mode service within (fun e member serving => ?_) h
    obtain ⟨x, member', serving', _⟩ := back e member serving
    exact ⟨x, member', serving'⟩

theorem State.resetAll_serviceTable (s : State) : s.resetAll.serviceTable := ⟨nofun, nofun, fun _ => nofun⟩

theorem Claims.tick_serves (c : Claims) : servesWithin c.table c.tick.table ∧ servesWithin c.tick.table c.table := by
  refine ⟨fun e member serving => ?_, fun e member serving => ⟨e.tick, List.mem_map_of_mem member, serving, rfl⟩⟩
  obtain ⟨x, member', rfl⟩ := List.mem_map.mp member
  exact ⟨x, member', serving, rfl⟩

theorem State.tick_seq (s : State) : s.tick.seq = s.seq := by
  unfold State.tick; dsimp only; split <;> rfl

theorem State.tick_serviceTable {s : State} (h : s.serviceTable) : s.tick.serviceTable := by
  have service : s.tick.seq.service = s.seq.service := by rw [s.tick_seq]
  rcases s.tick_claims with e | e
  · exact State.serviceTable_congr s.tick_mode (by rw [e]) service h
  · obtain ⟨within, back⟩ := s.claims.tick_serves
    rw [← e] at within back
    exact serviceTable_keeps.tabled s s.tick s.tick_mode service within back h

theorem onService_keeps : ModeTimesKeep fun s => Seq.onService s.seq where
  congr s t _ _ _ seq _ h := by rw [seq]; exact h
  enterMode s m _ _ h := s.enterMode_onService m h
  seqStep s t e h := s.seqStep_onService t e h
  arbitrate s h := State.setService_onService _ _ h
  advance s h := s.advance_onService h
  takeNotices _ _ h := h
  setWait _ _ h := h
  clearWait _ h := h
  reset _ := ⟨nofun, nofun⟩
  release s _ h := State.enterMode_onService s.released .loading h
  tick s h := by rw [s.tick_seq]; exact h

/-- The law of the service stage is that of the claim table and that of the sequencer together. -/
theorem State.serviceSafe_iff (s : State) : s.serviceSafe ↔ s.serviceTable ∧ Seq.onService s.seq := by
  unfold State.serviceSafe State.serviceTable Seq.onService
  rw [and_assoc, and_assoc]

/-- Settles O42: what moves the SERVING entries keeps them at the asserted stage, and what moves the sequencer keeps it on
that stage. -/
theorem oneServiceStage : Obligations.OneServiceStage := by
  intro s t safe run
  obtain ⟨table, seq⟩ := s.serviceSafe_iff.mp safe
  refine t.serviceSafe_iff.mpr ⟨?table, ?seq⟩
  case table =>
    exact step_keeps (P := State.serviceTable) (fun _ _ _ queued => queued) (fun _ => State.tick_serviceTable)
      (fun c u v e kept => serviceTable_keeps.exec State.resetAll_serviceTable c u v e kept) table run
  case seq =>
    exact step_keeps (P := fun u => Seq.onService u.seq) (fun _ _ _ queued => queued) onService_keeps.tick
      (fun c u v e kept => onService_keeps.exec c u v e kept) seq run

/-! ### The sequencer and the mode timer outside RUNNING (R85, R174, R176) -/

theorem State.sequencerSafe_running {s : State} (running : s.ctrl.mode = .running) : s.sequencerSafe :=
  fun other => absurd running other

/-- An entry to a mode ends the flash entry wait, and but for RUNNING leaves the sequencer IDLE. -/
theorem State.enterMode_sequencerSafe {s : State} (m : Mode) (h : s.sequencerSafe) : (s.enterMode m).sequencerSafe := by
  by_cases running : m = .running
  · exact State.sequencerSafe_running (by rw [State.enterMode_mode, running])
  · obtain ⟨idle, release, forceOff⟩ := s.enterMode_idle m running h
    exact fun _ => ⟨idle, release, forceOff, by rw [State.enterMode_ctrl]⟩

theorem sequencerSafe_keeps : ModeTimesKeep State.sequencerSafe where
  congr s t mode _ wait seq _ h := by
    unfold State.sequencerSafe
    rw [mode, wait, seq]
    exact h
  enterMode s m _ _ h := State.enterMode_sequencerSafe m h
  seqStep s t e h other := by
    have before : s.ctrl.mode ≠ .running := by rw [← State.seqStep_ctrl e]; exact other
    rw [State.seqStep_idle s (h before).1] at e
    cases e
  arbitrate s h other := by
    rw [State.arbitrate_ctrl] at other ⊢
    obtain ⟨idle, release, forceOff, wait⟩ := h other
    let table := arbitrateTable s.holdTicks (served s.ctrl.mode s.manualFlag) s.claims.table
    obtain ⟨idle', release', forceOff'⟩ := State.setService_idle (s.withClaimTable table) (servingStage table) idle
    exact ⟨idle', release'.trans release, forceOff'.trans forceOff, wait⟩
  advance s h other := by
    rw [State.advance_ctrl] at other
    rw [State.advance_idle s (h other).1]
    exact h other
  takeNotices s n h other := by
    obtain ⟨idle, release, forceOff, wait⟩ := h other
    obtain ⟨idle', release', forceOff'⟩ := State.takeNotices_idle s n idle release forceOff
    exact ⟨idle', release', forceOff', wait⟩
  setWait s running _ := State.sequencerSafe_running running
  clearWait s h other := by
    obtain ⟨idle, release, forceOff, _⟩ := h other
    exact ⟨idle, release, forceOff, rfl⟩
  reset _ _ := ⟨rfl, rfl, rfl, rfl⟩
  release s _ h := State.enterMode_sequencerSafe (s := s.released) .loading h
  tick s h other := by
    rw [s.tick_mode] at other
    have wait : s.tick.ctrl.wait = s.ctrl.wait := by unfold State.tick; dsimp only; split <;> rfl
    rw [s.tick_seq, wait]
    exact h other

theorem Mode.timerStart_iff (m : Mode) : m.timerStart.isSome = true ↔ m = .startFlash ∨ m = .allRed := by
  cases m <;> simp [Mode.timerStart]

theorem State.timerSafe_congr {s t : State} (mode : t.ctrl.mode = s.ctrl.mode)
    (timer : t.ctrl.timer.isSome = s.ctrl.timer.isSome) (h : s.timerSafe) : t.timerSafe := by
  unfold State.timerSafe
  rw [mode, timer]
  exact h

theorem State.enterMode_timerSafe (s : State) (m : Mode) : (s.enterMode m).timerSafe := by
  unfold State.timerSafe
  rw [State.enterMode_ctrl]
  exact m.timerStart_iff

theorem timerSafe_keeps : ModeTimesKeep State.timerSafe where
  congr s t mode timer _ _ _ h := State.timerSafe_congr mode (by rw [timer]) h
  enterMode s m _ _ _ := s.enterMode_timerSafe m
  seqStep s t e h := State.timerSafe_congr (by rw [State.seqStep_ctrl e]) (by rw [State.seqStep_ctrl e]) h
  arbitrate s h := State.timerSafe_congr (by rw [s.arbitrate_ctrl]) (by rw [s.arbitrate_ctrl]) h
  advance s h := State.timerSafe_congr (by rw [s.advance_ctrl]) (by rw [s.advance_ctrl]) h
  takeNotices _ _ h := h
  setWait _ _ h := h
  clearWait _ h := h
  reset _ := ⟨nofun, nofun⟩
  release s _ _ := s.released.enterMode_timerSafe .loading
  tick s h := by
    refine State.timerSafe_congr s.tick_mode ?_ h
    unfold State.tick
    dsimp only
    split
    · rfl
    · exact Option.isSome_map

/-- Settles O51: the sequencer and the timer through every move of mode and sequencer, the groups through every move of
theirs. -/
theorem modesHoldSequencerAndTimer : Obligations.ModesHoldSequencerAndTimer := by
  refine ⟨fun s t safe run => ?sequencer, fun s t safe run => ?timer, fun s t => step_keeps_forceSafe⟩
  case sequencer =>
    exact step_keeps (P := State.sequencerSafe) (fun _ _ _ queued => queued) sequencerSafe_keeps.tick
      (fun c u v e kept => sequencerSafe_keeps.exec c u v e kept) safe run
  case timer =>
    exact step_keeps (P := State.timerSafe) (fun _ _ _ queued => queued) timerSafe_keeps.tick
      (fun c u v e kept => timerSafe_keeps.exec c u v e kept) safe run

end Sys2Proof.Machine
end

section
/-! PROOFS. When the events of each block are due: the condition of each command, as its rule states it. -/

namespace Sys2Proof.Machine

/-- A value that some number must have reached. -/
theorem any_le_iff {o : Option Nat} {k : Nat} : (o.any fun n => decide (k ≤ n)) = true ↔ ∃ n, o = some n ∧ k ≤ n := by
  rw [Option.any_eq_true]
  simp only [decide_eq_true_eq]

/-! ### Modes and plan read -/

theorem State.releaseDue_iff (s : State) : s.releaseDue = true ↔
    s.ctrl.mode = .dark ∧ s.supplyOk = true ∧ s.resetPin.level = some false := by
  simp only [State.releaseDue, State.resetFree, Bool.and_eq_true, beq_iff_eq]

theorem State.transferring_iff (s : State) : s.transferring = true ↔
    s.ctrl.mode = .loading ∧ s.planRead.readState = .reading ∧ s.planRead.port ≠ [] := by
  simp only [State.transferring, Bool.and_eq_true, beq_iff_eq, Bool.not_eq_true', List.isEmpty_eq_false_iff, and_assoc]

/-- The retry pause tRP is 313 ticks (log 6). -/
theorem State.retryDue_iff (s : State) : s.retryDue = true ↔
    s.ctrl.mode = .loading ∧ s.planRead.readState = .reading ∧ s.planRead.port = [] ∧
      ∃ n, s.planRead.attempt = some n ∧ 313 ≤ n := by
  simp only [State.retryDue, Bool.and_eq_true, beq_iff_eq, List.isEmpty_iff, any_le_iff, and_assoc]
  exact Iff.rfl

theorem State.checking_iff (s : State) : s.checking = true ↔
    s.ctrl.mode = .loading ∧ s.planRead.readState = .checking := by
  simp only [State.checking, Bool.and_eq_true, beq_iff_eq]

theorem State.planTime_some {s : State} {p : Plan} (planned : s.plan = some p) (f : Plan → Nat) :
    s.planTime f = 6250 * f p := by
  rw [State.planTime, planned]; rfl

theorem State.startFlashDue_iff (s : State) : s.startFlashDue = true ↔
    s.ctrl.mode = .startFlash ∧ ∃ n, s.ctrl.timer = some n ∧ s.planTime (·.tSF) ≤ n := by
  simp only [State.startFlashDue, State.timerReached, Bool.and_eq_true, beq_iff_eq, any_le_iff]

theorem State.allRedDue_iff (s : State) : s.allRedDue = true ↔
    s.ctrl.mode = .allRed ∧ ∃ n, s.ctrl.timer = some n ∧ s.planTime (·.tAR) ≤ n := by
  simp only [State.allRedDue, State.timerReached, Bool.and_eq_true, beq_iff_eq, any_le_iff]

theorem State.selfSettleDue_iff (s : State) : s.selfSettleDue = true ↔
    s.lamps.selfCheck = .running ∧ s.lamps.selfJudging = false ∧ 3125 ≤ s.lamps.selfTime := by
  simp only [State.selfSettleDue, Bool.and_eq_true, beq_iff_eq, Bool.not_eq_true', decide_eq_true_eq, and_assoc]
  exact Iff.rfl

theorem State.channelsOn_nil (s : State) : s.channelsOn = [] ↔ ∀ c, s.sensed c = false := by
  simp only [State.channelsOn, List.filter_eq_nil_iff, List.mem_finRange, forall_const, Bool.not_eq_true]

theorem State.selfPassDue_iff (s : State) : s.selfPassDue = true ↔
    s.ctrl.mode = .check ∧ s.lamps.selfCheck = .running ∧ s.lamps.selfJudging = true ∧ 62500 ≤ s.lamps.selfTime ∧
      ∀ c, s.sensed c = false := by
  simp only [State.selfPassDue, State.selfWatching, Bool.and_eq_true, beq_iff_eq, decide_eq_true_eq, List.isEmpty_iff,
    State.channelsOn_nil, and_assoc]
  exact Iff.rfl

/-- tPS is 2 s, 125 000 ticks (R50). -/
theorem State.patternDue_iff (s : State) : s.patternDue = true ↔
    s.ctrl.mode ≠ .dark ∧ 125000 ≤ s.cycle.pairTime ∧ s.cycle.pair ≠ s.cycle.requested := by
  simp only [State.patternDue, Bool.and_eq_true, Bool.not_eq_true', beq_eq_false_iff_ne, decide_eq_true_eq, and_assoc]
  exact Iff.rfl

/-! ### The corridor line -/

theorem Line.reached_iff (l : Line) (t : Nat) : l.reached t = true ↔ ∃ n, l.frameTimer = some n ∧ t ≤ n := any_le_iff

theorem Line.resolves_iff (l : Line) (len : Nat) : l.resolves len = true ↔ ∃ q, l.pending = some q ∧ q.age ≤ len + 16 := by
  simp only [Line.resolves, Option.any_eq_true, decide_eq_true_eq]
  exact Iff.rfl

theorem Line.stuckBy_iff (l : Line) (run : Nat) : l.stuckBy run = true ↔
    l.st.receiving = true ∧ (200 < run ∨ ∃ q, l.pending = some q ∧ 200 ≤ q.age ∧ q.age ≤ run + 16) := by
  simp only [Line.stuckBy, Bool.and_eq_true, Bool.or_eq_true, Option.any_eq_true, decide_eq_true_eq]
  exact Iff.rfl

theorem Line.inRecord_iff (l : Line) : l.inRecord = true ↔ l.sending ≠ none ∨ l.txEnd = some .judging := by
  simp only [Line.inRecord, Bool.or_eq_true, beq_iff_eq, Option.isSome_iff_ne_none]

theorem State.sendDue_iff (s : State) : s.sendDue = true ↔
    s.line.st = .active ∧ s.line.sending = none ∧ s.line.txEnd = none ∧ s.line.snapshot ≠ [] ∧
      ∃ p, s.plan = some p ∧ s.line.frameTimer = some (250 + 360 * p.station.val + 40) := by
  simp only [State.sendDue, Bool.and_eq_true, beq_iff_eq, Option.isNone_iff_eq_none, Bool.not_eq_true',
    List.isEmpty_eq_false_iff, Option.any_eq_true, slotBegin, tMS, tSL, tLI, and_assoc]

theorem State.ownSlotOver_iff (s : State) : s.ownSlotOver = true ↔ s.line.txEnd ≠ none ∧
    ∃ p n, s.plan = some p ∧ s.line.frameTimer = some n ∧ 250 + 360 * (p.station.val + 1) ≤ n := by
  simp only [State.ownSlotOver, Bool.and_eq_true, Option.isSome_iff_ne_none, Option.any_eq_true, Line.reached_iff,
    slotFinish, exists_and_left]
  exact Iff.rfl

theorem State.slotOpen_iff (s : State) (k : StationId) : s.slotOpen k = true ↔
    s.line.st.receiving = true ∧ s.ownSlot k = false ∧ s.line.outcomes.nth k = none := by
  simp only [State.slotOpen, Bool.and_eq_true, Bool.not_eq_true', Option.isNone_iff_eq_none, and_assoc]

/-! ### The groups -/

theorem Group.lasted_iff (r : Group) (t : Nat) : r.lasted t = true ↔ 6250 * t ≤ r.time := by
  simp only [Group.lasted, decide_eq_true_eq]
  exact Iff.rfl

theorem State.prepareDue_iff (s : State) (g : GroupId) : s.prepareDue g = true ↔
    (s.groups.nth g).state = .prepare ∧ 6250 * (s.groupPlan g).tPRE ≤ (s.groups.nth g).time := by
  simp only [State.prepareDue, Bool.and_eq_true, beq_iff_eq, Group.lasted_iff]

theorem State.minGreenDue_iff (s : State) (g : GroupId) : s.minGreenDue g = true ↔
    (s.groups.nth g).state = .green ∧ (s.groups.nth g).minDone = false ∧
      6250 * (s.groupPlan g).tMIN ≤ (s.groups.nth g).time := by
  simp only [State.minGreenDue, Bool.and_eq_true, beq_iff_eq, Bool.not_eq_true', Group.lasted_iff, and_assoc]

theorem State.gapDue_iff (s : State) (g : GroupId) : s.gapDue g = true ↔
    (s.groups.nth g).state = .green ∧ s.gapTimed g = true ∧ (s.groups.nth g).gapped = false ∧
      (s.groups.nth g).gap = 0 ∧ s.extended g = false := by
  simp only [State.gapDue, Bool.and_eq_true, beq_iff_eq, Bool.not_eq_true', and_assoc]

theorem State.maxDue_iff (s : State) (g : GroupId) : s.maxDue g = true ↔
    (s.groups.nth g).state = .green ∧ (s.groups.nth g).maxRunning = true ∧ (s.groups.nth g).maxDone = false ∧
      (s.groups.nth g).maxLeft = 0 ∧ (s.groups.nth g).minDone = true := by
  simp only [State.maxDue, Bool.and_eq_true, beq_iff_eq, Bool.not_eq_true', and_assoc]

theorem State.clearingDue_iff (s : State) (g : GroupId) : s.clearingDue g = true ↔
    (s.groups.nth g).state = .clearing ∧ 6250 * (s.groupPlan g).tCLR ≤ (s.groups.nth g).time := by
  simp only [State.clearingDue, Bool.and_eq_true, beq_iff_eq, Group.lasted_iff]

/-! ### The detectors -/

theorem Det.initialDue_iff (f : LocalDef) (d : Det) : d.initialDue f = true ↔ d.initial = false ∧ 625 * f.tDF ≤ d.filt := by
  rw [Det.initialDue, Bool.and_eq_true, Bool.not_eq_true', decide_eq_true_eq]
  exact Iff.rfl

theorem Det.edgeDue_iff (f : LocalDef) (d : Det) :
    d.edgeDue f = true ↔ d.initial = true ∧ d.raw ≠ d.level ∧ 625 * f.tDF ≤ d.filt := by
  rw [Det.edgeDue, Bool.and_eq_true, Bool.and_eq_true, Bool.not_eq_true', beq_eq_false_iff_ne, decide_eq_true_eq,
    and_assoc]
  exact Iff.rfl

theorem Det.pulseDue_iff (d : Det) : d.pulseDue = true ↔ ∃ n, d.pulse = some n ∧ 31250 ≤ n := any_le_iff

/-! ### The claims -/

theorem State.leadReached_iff (s : State) (e : ClaimEntry) :
    s.leadReached e = true ↔ e.state = .waiting ∧ e.remaining ≤ s.leadTicks e.route := by
  simp only [State.leadReached, Bool.and_eq_true, beq_iff_eq, decide_eq_true_eq]

theorem ClaimEntry.arrivalDue_iff (e : ClaimEntry) : e.arrivalDue = true ↔ e.remaining = 0 ∧ e.arrived = false := by
  simp only [ClaimEntry.arrivalDue, Bool.and_eq_true, beq_iff_eq, Bool.not_eq_true']

theorem ClaimEntry.holdDue_iff (e : ClaimEntry) : e.holdDue = true ↔ e.state = .serving ∧ e.hold = some 0 := by
  simp only [ClaimEntry.holdDue, Bool.and_eq_true, beq_iff_eq]

theorem ClaimEntry.lifeDue_iff (e : ClaimEntry) :
    e.lifeDue = true ↔ e.life = 0 ∧ e.state ≠ .cleared ∧ e.state ≠ .expired := by
  rw [ClaimEntry.lifeDue, Bool.and_eq_true, beq_iff_eq]
  refine and_congr_right fun _ => ?_
  cases e.state <;> simp

/-- What is found under an identity is an entry of the table with that identity. -/
theorem State.findClaim_mem {s : State} {origin : StationId} {serial : Fin 16} {e : ClaimEntry}
    (found : s.findClaim origin serial = some e) : e ∈ s.claims.table ∧ e.origin = origin ∧ e.serial = serial := by
  have same := List.find?_some found
  unfold ClaimEntry.is at same
  rw [Bool.and_eq_true, beq_iff_eq, beq_iff_eq] at same
  exact ⟨List.mem_of_find?_eq_some found, same⟩

/-! ### The channels and the latches -/

theorem Chan.settleDue_iff (ch : Chan) : ch.settleDue = true ↔ ∃ n, ch.settle = some n ∧ 3125 ≤ n := any_le_iff

theorem Chan.unDue_iff (ch : Chan) : ch.unDue = true ↔ 31250 ≤ ch.unTime ∧ ch.unLive = false := by
  simp only [Chan.unDue, Bool.and_eq_true, decide_eq_true_eq, Bool.not_eq_true']
  exact Iff.rfl

theorem Chan.loDue_iff (ch : Chan) : ch.loDue = true ↔ 62500 ≤ ch.loTime ∧ ch.loLive = false := by
  simp only [Chan.loDue, Bool.and_eq_true, decide_eq_true_eq, Bool.not_eq_true']
  exact Iff.rfl

theorem State.conflictDue_iff (s : State) (a b : GroupId) : s.conflictDue a b = true ↔
    a < b ∧ s.pairLit a b = true ∧ 12500 ≤ (s.lamps.pairs.nth a).nth b := by
  simp only [State.conflictDue, Bool.and_eq_true, decide_eq_true_eq, and_assoc]
  exact Iff.rfl

theorem State.greenDue_iff (s : State) (g : GroupId) : s.greenDue g = true ↔
    s.greenLit g = true ∧ 12500 ≤ s.lamps.greens.nth g := by
  simp only [State.greenDue, Bool.and_eq_true, decide_eq_true_eq]
  exact Iff.rfl

theorem State.redDue_iff (s : State) (g : GroupId) : s.redDue g = true ↔
    s.redDark g = true ∧ 31250 ≤ s.lamps.reds.nth g := by
  simp only [State.redDue, Bool.and_eq_true, decide_eq_true_eq]
  exact Iff.rfl

end Sys2Proof.Machine
end

section
/-! PROOFS. The queue: the command at its front (log 1), that every command completes and leaves it (log 2), and the law of every step at reset. -/

namespace Sys2Proof.Machine

/-- Settles O1: `step` by its branch for a queue that is not empty. -/
theorem stepTakesTheFrontCommand : Obligations.StepTakesTheFrontCommand := by
  intro c rest s queued
  unfold step
  rw [queued]

/-! ### The reset state -/

theorem State.reset_loadSafe : State.reset.loadSafe :=
  State.reset.loadSafe_iff.mpr ⟨fun _ => ⟨rfl, rfl⟩, State.reset_offRests⟩

theorem State.reset_groups_nth (g : GroupId) : State.reset.groups.nth g = Group.reset := Table.nth_tab _ g

theorem State.reset_peers_nth (k : StationId) : State.reset.peers.nth k = Peer.reset := Table.nth_tab _ k

/-- The groups are dark at reset, with no request held (R82). -/
theorem State.reset_forceSafe : State.reset.forceSafe := by
  intro g
  rw [State.reset_groups_nth]
  exact ⟨fun _ _ => rfl, fun _ => ⟨fun _ => ⟨rfl, rfl⟩, nofun, nofun⟩⟩

/-- Settles O60: each law from the values its items have at reset. -/
theorem resetKeepsEveryLaw : Obligations.ResetKeepsEveryLaw := by
  refine ⟨State.reset_loadSafe, ?conflict, ⟨nofun, fun _ => rfl, nofun⟩, ?claims, ?service, ⟨nofun, nofun⟩,
    fun _ => ⟨rfl, rfl, rfl, rfl⟩, ⟨nofun, nofun⟩, ?groups, ?records, State.reset_forceSafe⟩
  case conflict => exact State.conflictSafe_of_planless rfl fun g => by rw [State.reset_groups_nth]; rfl
  case claims => exact ⟨Nat.zero_le _, List.nodup_nil, Nat.zero_le _, List.nodup_nil⟩
  case service => exact ⟨nofun, nofun, fun _ => nofun, nofun, nofun⟩
  case groups => intro g; rw [State.reset_groups_nth]; exact Group.reset_regular
  case records => intro k; rw [State.reset_peers_nth]; exact iff_of_true rfl (.inl rfl)

/-! ### Every command completes -/

/-- Every command has a next state in every state (log 2). -/
theorem exec_next (c : Instr) (s : State) : ∃ t, exec c s = .next t := by
  cases c <;> exact ⟨_, rfl⟩

theorem BoundaryMove.pending {s t : State} (move : BoundaryMove s t) : t.pending = s.pending := by
  cases move with
  | line rest _ => rw [rest]
  | boundary l heard age outcome _ taken => rw [taken, State.frameBoundary_pending]

theorem State.startUpReset_pending (s : State) (cause : ResetCause) : (s.startUpReset cause).pending = s.pending := by
  cases cause with
  | resetLine held => unfold State.startUpReset; dsimp only; split <;> rfl
  | powerOn | supplyFall | supplyReached | resetLineHigh => rfl

theorem State.latchConflict_pending (s : State) (c : ConflictCause) : (s.latchConflict c).pending = s.pending := by
  unfold State.latchConflict
  split
  · rfl
  · rw [State.faultEvent_pending]

theorem State.latchRedOut_pending (s : State) (g : GroupId) : (s.latchRedOut g).pending = s.pending := by
  unfold State.latchRedOut
  split
  · rfl
  · rw [State.faultEvent_pending]

theorem State.alsoRedOut_pending (l : List GroupId) (s : State) : (s.alsoRedOut l).pending = s.pending := by
  cases l with
  | nil => rfl
  | cons g l => exact State.latchRedOut_pending _ _

theorem State.alsoConflict_pending (l : List (GroupId × GroupId)) (s : State) : (s.alsoConflict l).pending = s.pending := by
  cases l with
  | nil => rfl
  | cons p l => exact State.latchConflict_pending _ _

theorem State.edgeByMode_pending (s : State) (d : LocalId) (f : LocalDef) : (s.edgeByMode d f).pending = s.pending := by
  unfold State.edgeByMode
  split
  · rfl
  · rfl
  · rfl
  · exact s.claimEdge_pending _ _
  · exact s.checkOut_pending _

theorem State.faultResetOrders_pending (s : State) : s.faultResetOrders.pending = s.pending := by
  unfold State.faultResetOrders
  dsimp only
  split
  · rw [State.enterMode_pending]; rfl
  · rfl

theorem State.flashCleared_pending (s : State) : s.flashCleared.pending = s.pending := by
  unfold State.flashCleared
  split
  · rfl
  · rw [State.enterJudged_pending]
  all_goals rfl

theorem State.judgePair_pending (s : State) : s.judgePair.pending = s.pending := by
  unfold State.judgePair; split <;> rfl

theorem State.flashPhaseChange_pending (s : State) : s.flashPhaseChange.pending = s.pending := by
  unfold State.flashPhaseChange; split <;> rfl

/-- A command leaves the queue (log 1). -/
theorem exec_pending {c : Instr} {s t : State} (e : exec c s = .next t) : t.pending = s.pending := by
  cases hl : lineOnly c with
  | true => rw [exec_lineOnly c s t hl e]
  | false =>
    have row (r : RxChar → Bool) (levels : BitVec 10) : (s.receiveRow r levels).pending = s.pending := by
      obtain ⟨_, received⟩ := s.receiveRow_diag r levels
      rw [received]
    cases c
    case dominantRunEnd len edge => exact (exec_boundaryMove (.inl ⟨len, edge, rfl⟩) e).pending
    case joinWindowClose => exact (exec_boundaryMove (.inr (.inl rfl)) e).pending
    case lineStuck run => exact (exec_boundaryMove (.inr (.inr ⟨run, rfl⟩)) e).pending
    all_goals first
      | (simp [lineOnly] at hl; done)
      | injection e with e; subst e
    case startUpReset cause => exact s.startUpReset_pending cause
    case stationQuery levels => exact row _ levels
    case groupsQuery levels => exact row _ levels
    case detectorsQuery levels => exact row _ levels
    case peersQuery levels => exact row _ levels
    case claimsQuery levels => exact row _ levels
    case faultsQuery levels => exact row _ levels
    case countsQuery levels => exact row _ levels
    case errorReply levels => exact row _ levels
    case diagFramingError levels => exact row _ levels
    case diagCharacterIgnored levels => exact row _ levels
    case flashPhaseChange => exact s.flashPhaseChange_pending
    case detectorInputChange => rfl
    case resetRelease => unfold State.resetRelease; split <;> simp [State.released]
    case peerClassification => unfold State.peerClassification; (repeat' split); all_goals rfl
    case peerLost => unfold State.peerLost; dsimp only; (repeat' split); all_goals rfl
    case peerAbsent => unfold State.peerAbsent; dsimp only; (repeat' split); all_goals rfl
    case startHoldEnd => unfold State.startHoldEnd; split <;> rfl
    case unsetWaitEnd => unfold State.unsetWaitEnd; (repeat' split); all_goals simp [State.cycleOutput_pending]
    case divergenceAdoption => unfold State.divergenceAdoption; (repeat' split); all_goals simp [State.cycleOutput_pending]
    case patternLineChange =>
      unfold State.patternLineChange
      dsimp only
      split
      · rfl
      · exact State.judgePair_pending _
    case requestedPatternChange => unfold State.requestedPatternChange; split <;> rfl
    case openGrant => unfold State.openGrant; (repeat' split); all_goals simp
    case prepareEnd => unfold State.prepareEnd; split <;> simp
    case minGreenEnd => unfold State.minGreenEnd State.groupChange; split <;> simp
    case gapOut => unfold State.gapOut State.groupChange; split <;> simp
    case maxDone => unfold State.maxDoneEvent State.groupChange; split <;> simp
    case clearingEnd => unfold State.clearingEnd State.groupChange; split <;> simp
    case manualChange => unfold State.manualChange; dsimp only; (repeat' split); all_goals simp [State.sampleManual]
    case advancePress => unfold State.advancePress; dsimp only; split <;> simp [State.sampleAdvance]
    case initialLevel => unfold State.initialLevel; (repeat' split); all_goals simp
    case detectorRisingEdge =>
      unfold State.detectorRisingEdge; (repeat' split); all_goals simp [State.edgeByMode_pending]
    case detectorFallingEdge => unfold State.detectorFallingEdge; (repeat' split); all_goals simp
    case pulseOccupancyEnd => unfold State.pulseOccupancyEnd; split <;> simp
    case faultStuck => unfold State.faultStuck; (repeat' split); all_goals simp
    case faultSilent => unfold State.faultSilent; (repeat' split); all_goals simp
    case withdrawalDetected => unfold State.withdrawalDetected; dsimp only; (repeat' split); all_goals simp
    case claimReady => unfold State.claimReady State.updClaim; (repeat' split); all_goals simp
    case claimArrived => unfold State.claimArrived State.updClaim; dsimp only; (repeat' split); all_goals simp
    case holdEnd => unfold State.holdEnd State.clearFirst; (repeat' split); all_goals simp
    case claimLifetimeEnd => unfold State.claimLifetimeEnd State.updClaim; dsimp only; (repeat' split); all_goals simp
    case senseChange =>
      unfold State.senseChange; dsimp only; repeat' split
      · rfl
      · exact State.selfCheckFail_pending _ _
      · rfl
    case settleEnd => unfold State.settleEnd; split <;> rfl
    case conflict =>
      unfold State.conflictEvent
      split <;> simp [State.alsoRedOut_pending, State.latchConflict_pending]
    case greenInFlash => unfold State.greenInFlash; split <;> simp [State.latchConflict_pending]
    case redOut =>
      unfold State.redOutEvent
      split <;> simp [State.alsoConflict_pending, State.latchRedOut_pending]
    case uncommandedOn => unfold State.uncommandedOn; split <;> rfl
    case lampOut => unfold State.lampOut; split <;> rfl
    case selfCheckPass => unfold State.selfCheckPass; split <;> simp
    case selfCheckSettleEnd =>
      unfold State.selfCheckSettleEnd; dsimp only; repeat' split
      all_goals simp [State.selfCheckFail_pending]
    case startFlashEnd => unfold State.startFlashEnd; split <;> simp
    case allRedEnd => unfold State.allRedEnd; dsimp only; (repeat' split); all_goals simp
    case flashRequestChange =>
      unfold State.flashRequestChange; dsimp only; repeat' split
      all_goals simp [State.sampleFlash, State.flashCleared_pending]
    case panelFaultReset =>
      unfold State.panelFaultReset; dsimp only
      split <;> simp [State.sampleFaultReset, State.faultResetOrders_pending]
    case planTransfer =>
      unfold State.planTransfer State.transferDone State.headerFault; dsimp only; repeat' split
      all_goals simp [State.planFault_pending]
    case transferFailure =>
      unfold State.transferFailure State.transferFailed; repeat' split
      all_goals simp [State.planFault_pending]
    case transferRetry => unfold State.transferRetry; split <;> rfl
    case planValidation =>
      unfold State.planValidation State.planLoad State.writePlan; repeat' split
      all_goals simp [State.planFault_pending]
    case diagReplyEnd => unfold State.diagReplyEnd; split <;> rfl

end Sys2Proof.Machine
end

section
/-! PROOFS. A command whose condition does not hold changes nothing (log 2). -/

namespace Sys2Proof.Machine

/-- The branch for a condition that does not hold. -/
theorem stays {α : Sort _} {b : Bool} {due : Prop} {x y : α} (iff : b = true ↔ due) (notDue : ¬ due) :
    (if b = true then x else y) = y := if_neg (mt iff.mp notDue)

/-! ### Modes and plan read -/

theorem State.planTransfer_rests {s : State} (idle : s.transferring ≠ true) (levels : List Bool) :
    s.planTransfer levels = s := if_neg idle

theorem State.transferFailure_rests {s : State} (idle : s.transferring ≠ true) (levels : List Bool) :
    s.transferFailure levels = s := if_neg idle

theorem State.planTransfer_failed {s : State} {levels : List Bool} {cause : TransferFault}
    (failed : s.transferRun levels = .failed cause) : s.planTransfer levels = s := by
  cases h : s.transferring with
  | true => exact ((s.transfer_rows levels h).2 cause failed).1
  | false => exact State.planTransfer_rests (by rw [h]; nofun) levels

theorem State.transferFailure_done {s : State} {levels : List Bool} {data : List Byte}
    (done : s.transferRun levels = .done data) : s.transferFailure levels = s := by
  cases h : s.transferring with
  | true => exact ((s.transfer_rows levels h).1 data done).2
  | false => exact State.transferFailure_rests (by rw [h]; nofun) levels

/-- A mode time that the timer has not reached, by the plan in use. -/
theorem State.timer_short {s : State} {f : Plan → Nat}
    (short : s.ctrl.timer = none ∨ ∃ p n, s.plan = some p ∧ s.ctrl.timer = some n ∧ n < 6250 * f p) :
    ¬ ∃ n, s.ctrl.timer = some n ∧ s.planTime f ≤ n := by
  rintro ⟨n, running, reached⟩
  rcases short with off | ⟨p, m, planned, timer, less⟩
  · rw [off] at running; cases running
  · rw [State.planTime_some planned] at reached
    rw [timer] at running
    cases running
    omega

/-! ### The corridor line -/

theorem State.frameTimerExpiry_rests {s : State} (notDue : s.line.frameTimer = none ∨
    (∃ n, s.line.frameTimer = some n ∧ n < 6250) ∨ s.line.pending ≠ none) (run : Option Nat) (reaches : Bool) :
    s.frameTimerExpiry run reaches = s := by
  unfold State.frameTimerExpiry
  split
  next t timer pending =>
    rcases notDue with off | ⟨n, early, less⟩ | waits
    · rw [off] at timer; cases timer
    · rw [early] at timer; cases timer; exact if_pos less
    · exact absurd pending waits
  next => rfl

theorem State.joinWindowClose_rests {s : State} (notDue : s.line.pending = none ∨ ∃ q, s.line.pending = some q ∧
    (q.age < 16 ∨ s.line.st.receiving = true ∧ q.run = true)) : s.joinWindowClose = s := by
  unfold State.joinWindowClose
  split
  next => rfl
  next q pending =>
    rcases notDue with none_ | ⟨q', pending', early⟩
    · rw [none_] at pending; cases pending
    · rw [pending'] at pending; cases pending
      rcases early with early | ⟨receives, runs⟩
      · exact if_pos early
      · cases h : s.line.st <;> rw [h] at receives <;> cases receives
        all_goals dsimp only; rw [if_pos runs]; exact ite_self _

theorem State.lineStuck_rests {s : State} {run : Nat} (notDue : s.line.st.receiving = false ∨
    (run ≤ 200 ∧ ∀ q, s.line.pending = some q → q.age < 200 ∨ run + 16 < q.age)) : s.lineStuck run = s := by
  refine stays (s.line.stuckBy_iff run) ?_
  rintro ⟨receives, long⟩
  rcases notDue with deaf | ⟨short, open_⟩
  · rw [deaf] at receives; cases receives
  · rcases long with long | ⟨q, pending, low, high⟩
    · omega
    · have := open_ q pending; omega

theorem State.recordTransmissionEnd_rests {s : State} (notDue : s.line.sending = none ∨
    ∃ n, s.line.sending = some n ∧ n < 10 * s.line.snapshot.length) : s.recordTransmissionEnd = s := by
  unfold State.recordTransmissionEnd
  split
  next => rfl
  next n sending =>
    rcases notDue with off | ⟨m, sends, less⟩
    · rw [off] at sending; cases sending
    · rw [sends] at sending; cases sending; exact if_neg (by omega)

/-! ### Peers and the cycle unit -/

theorem State.peerClassification_rests {s : State} {k : StationId} {chars : List Byte}
    (notDue : goodRecord k chars = none ∨ (s.peers.nth k).presence = .absent ∨ (s.peers.nth k).presence = .lost ∨
      (s.peers.nth k).presence = .self ∨ ((s.peers.nth k).presence = .heard ∧ (s.peers.nth k).run < 2)) :
    s.peerClassification k chars = s := by
  unfold State.peerClassification
  split
  next => rfl
  next r good =>
    refine if_neg ?_
    rw [Bool.not_eq_true, Peer.classifiable]
    rcases notDue with bad | absent | lost | self | ⟨heard, few⟩
    · rw [bad] at good; cases good
    · rw [absent]
    · rw [lost]
    · rw [self]
    · rw [heard]; exact decide_eq_false (by unfold admitRun; omega)

theorem State.peerLost_rests {s : State} {k : StationId} (notDue : (s.peers.nth k).miss < 9 ∨
    ((s.peers.nth k).presence ≠ .present ∧ (s.peers.nth k).presence ≠ .foreign ∧ (s.peers.nth k).presence ≠ .unfit)) :
    s.peerLost k = s := by
  rcases notDue with few | ⟨present, foreign, unfit⟩
  · have few : ¬ missLost ≤ (s.peers.nth k).miss + 1 := by unfold missLost; omega
    unfold State.peerLost
    dsimp only
    split
    all_goals first | rfl | exact if_neg few
  · unfold State.peerLost
    dsimp only
    split
    all_goals first | rfl | contradiction

theorem State.peerAbsent_rests {s : State} {k : StationId}
    (notDue : (s.peers.nth k).miss < 49 ∨ (s.peers.nth k).presence ≠ .lost) : s.peerAbsent k = s := by
  unfold State.peerAbsent
  dsimp only
  split
  next lost =>
    rcases notDue with few | other
    · exact if_neg (by unfold missAbsent; omega)
    · contradiction
  all_goals rfl

theorem State.startHoldEnd_rests {s : State} (notDue : s.plan = none ∨ s.cycle.startHold ≠ 49) : s.startHoldEnd = s := by
  refine if_neg ?_
  rw [Bool.and_eq_true, beq_iff_eq]
  rintro ⟨planned, last⟩
  rcases notDue with planless | early
  · rw [planless] at planned; cases planned
  · unfold tSH at last; omega

theorem State.unsetWaitEnd_rests {s : State} (notDue : s.cycle.active = 0 ∨ s.cycle.set = true ∨ s.plan = none ∨
    ∃ p, s.plan = some p ∧ s.cycle.unsetWait + 1 ≠ p.cOf s.cycle.active) : s.unsetWaitEnd = s := by
  unfold State.unsetWaitEnd
  split
  next => rfl
  next p planned =>
    refine if_neg ?_
    rw [Bool.and_eq_true, Bool.and_eq_true, beq_iff_eq, Bool.not_eq_true', Bool.not_eq_true', beq_eq_false_iff_ne]
    rintro ⟨⟨active, unset⟩, waited⟩
    rcases notDue with idle | set | planless | ⟨q, planned', early⟩
    · exact active idle
    · rw [set] at unset; cases unset
    · rw [planless] at planned; cases planned
    · rw [planned'] at planned; cases planned; exact early waited

/-- The third judgment for one candidate adopts it (R57). -/
theorem Cycle.divergenceStep_iff (c : Cycle) (q : PatternId) :
    (c.divergenceStep (some q)).2 = true ↔ c.divCandidate = some q ∧ 3 ≤ c.divCount := by
  unfold Cycle.divergenceStep
  dsimp only
  split
  next same =>
    split
    next few => exact iff_of_false nofun fun h => absurd few (Nat.not_lt.mpr h.2)
    next many => exact iff_of_true rfl ⟨same, Nat.not_lt.mp many⟩
  next other => exact iff_of_false nofun fun h => other h.1

theorem State.divergenceAdoption_rests {s : State} (notDue : s.plan = none ∨ s.majority = none ∨
    ∃ q, s.majority = some q ∧ (s.cycle.divCandidate ≠ some q ∨ s.cycle.divCount < 3)) : s.divergenceAdoption = s := by
  unfold State.divergenceAdoption
  split
  next p q planned major =>
    refine stays (s.cycle.divergenceStep_iff q) ?_
    rintro ⟨same, many⟩
    rcases notDue with planless | split_ | ⟨q', major', few⟩
    · rw [planless] at planned; cases planned
    · rw [split_] at major; cases major
    · rw [major'] at major; cases major
      rcases few with other | few
      · exact other same
      · omega
  next => rfl

/-! ### Groups and detectors -/

theorem State.openGrant_rests {s : State} {g : GroupId} (notDue : s.clearToOpen g = false) : s.openGrant g = s := by
  have grant : s.grantable g = false := by rw [State.grantable, notDue]; rfl
  unfold State.openGrant
  rw [grant, notDue]
  rfl

theorem Det.inputChange_same {d : Det} {level : Bool} (same : level = d.raw) : d.inputChange level = d := if_pos same

theorem Table.upd_fixed {α : Type} {n : Nat} (t : Table α n) (i : Fin n) (f : α → α) (fixed : f (t.nth i) = t.nth i) :
    t.upd i f = t :=
  Table.ext_nth fun j => by
    rw [Table.nth_upd]
    split
    next same => rw [← same]; exact fixed
    next => rfl

theorem State.detectorInputChange_same {s : State} {d : LocalId} {level : Bool} (same : level = (s.dets.nth d).raw) :
    s.detectorInputChange d level = s := by
  unfold State.detectorInputChange State.updDet
  rw [Table.upd_fixed _ _ _ (Det.inputChange_same same)]

theorem State.initialLevel_rests {s : State} {d : LocalId}
    (notDue : ∀ f, s.localDef d = some f → (s.dets.nth d).initial = true ∨ (s.dets.nth d).filt < 625 * f.tDF) :
    s.initialLevel d = s := by
  unfold State.initialLevel
  split
  next => rfl
  next f local_ =>
    refine stays (Det.initialDue_iff f _) ?_
    rintro ⟨first, lasted⟩
    rcases notDue f local_ with taken | short
    · rw [taken] at first; cases first
    · omega

/-- An edge that is not due, or that would not change the level. -/
theorem Det.edge_rests {f : LocalDef} {d : Det} {want : Bool} (notDue : d.initial = false ∨ d.raw = d.level ∨
    d.filt < 625 * f.tDF ∨ d.level ≠ want) : ¬ (d.edgeDue f = true ∧ d.level = want) := by
  rw [Det.edgeDue_iff]
  rintro ⟨⟨first, differs, lasted⟩, level⟩
  rcases notDue with untaken | same | short | other
  · rw [untaken] at first; cases first
  · exact differs same
  · omega
  · exact other level

theorem State.detectorRisingEdge_rests {s : State} {d : LocalId} (notDue : ∀ f, s.localDef d = some f →
    (s.dets.nth d).initial = false ∨ (s.dets.nth d).raw = (s.dets.nth d).level ∨
      (s.dets.nth d).filt < 625 * f.tDF ∨ (s.dets.nth d).level = true) : s.detectorRisingEdge d = s := by
  unfold State.detectorRisingEdge
  split
  next => rfl
  next f local_ =>
    refine if_neg ?_
    rw [Bool.and_eq_true, Bool.not_eq_true']
    refine Det.edge_rests ?_
    rw [Ne, Bool.not_eq_false]
    exact notDue f local_

theorem State.detectorFallingEdge_rests {s : State} {d : LocalId} (notDue : ∀ f, s.localDef d = some f →
    (s.dets.nth d).initial = false ∨ (s.dets.nth d).raw = (s.dets.nth d).level ∨
      (s.dets.nth d).filt < 625 * f.tDF ∨ (s.dets.nth d).level = false) : s.detectorFallingEdge d = s := by
  unfold State.detectorFallingEdge
  split
  next => rfl
  next f local_ =>
    refine if_neg ?_
    rw [Bool.and_eq_true]
    refine Det.edge_rests ?_
    rw [Ne, Bool.not_eq_true]
    exact notDue f local_

theorem State.faultStuck_rests {s : State} {d : LocalId} (notDue : ∀ f, s.localDef d = some f →
    (s.dets.nth d).fault ≠ .normal ∨ ∀ n, (s.dets.nth d).presence = some n → n < 3750000 * f.tMP) :
    s.faultStuck d = s := by
  unfold State.faultStuck
  split
  next => rfl
  next f local_ =>
    refine stays (Det.stuckDue_iff f _) ?_
    rintro ⟨normal, n, present, lasted⟩
    rw [minute_eq] at lasted
    rcases notDue f local_ with faulted | short
    · exact faulted normal
    · have := short n present; omega

theorem State.faultSilent_rests {s : State} {d : LocalId} (notDue : ∀ f, s.localDef d = some f →
    (s.dets.nth d).fault ≠ .normal ∨ (s.dets.nth d).level = true ∨
      ∀ n, (s.dets.nth d).silence = some n → n < 225000000 * f.tMSL) : s.faultSilent d = s := by
  unfold State.faultSilent
  split
  next => rfl
  next f local_ =>
    refine stays (Det.silentDue_iff f _) ?_
    rintro ⟨normal, empty, n, silent, lasted⟩
    rw [hour_eq] at lasted
    rcases notDue f local_ with faulted | occupied | short
    · exact faulted normal
    · rw [occupied] at empty; cases empty
    · have := short n silent; omega

/-! ### The claims -/

/-- A condition on the entry of an identity that no such entry of the table meets. -/
theorem State.found_rests {s : State} {origin : StationId} {serial : Fin 16} {rests : ClaimEntry → Prop}
    (notDue : ∀ e ∈ s.claims.table, e.origin = origin → e.serial = serial → rests e) {e : ClaimEntry}
    (found : s.findClaim origin serial = some e) : rests e := by
  obtain ⟨mem, hasOrigin, hasSerial⟩ := State.findClaim_mem found
  exact notDue e mem hasOrigin hasSerial

theorem State.claimReady_rests {s : State} {origin : StationId} {serial : Fin 16}
    (notDue : ∀ e ∈ s.claims.table, e.origin = origin → e.serial = serial →
      e.state ≠ .waiting ∨ s.leadTicks e.route < e.remaining) : s.claimReady origin serial = s := by
  unfold State.claimReady
  split
  next => rfl
  next e found =>
    refine stays (s.leadReached_iff e) ?_
    rintro ⟨waiting, near⟩
    rcases State.found_rests notDue found with other | far
    · exact other waiting
    · omega

theorem State.claimArrived_rests {s : State} {origin : StationId} {serial : Fin 16}
    (notDue : ∀ e ∈ s.claims.table, e.origin = origin → e.serial = serial → e.remaining ≠ 0 ∨ e.arrived = true) :
    s.claimArrived origin serial = s := by
  unfold State.claimArrived
  split
  next => rfl
  next e found =>
    refine stays e.arrivalDue_iff ?_
    rintro ⟨zero, first⟩
    rcases State.found_rests notDue found with left_ | arrived
    · exact left_ zero
    · rw [arrived] at first; cases first

theorem State.holdEnd_rests {s : State} {origin : StationId} {serial : Fin 16}
    (notDue : ∀ e ∈ s.claims.table, e.origin = origin → e.serial = serial → e.state ≠ .serving ∨ e.hold ≠ some 0) :
    s.holdEnd origin serial = s := by
  unfold State.holdEnd
  split
  next => rfl
  next e found =>
    refine stays e.holdDue_iff ?_
    rintro ⟨serving, zero⟩
    exact (State.found_rests notDue found).elim (· serving) (· zero)

theorem State.claimLifetimeEnd_rests {s : State} {origin : StationId} {serial : Fin 16}
    (notDue : ∀ e ∈ s.claims.table, e.origin = origin → e.serial = serial →
      e.life ≠ 0 ∨ e.state = .cleared ∨ e.state = .expired) : s.claimLifetimeEnd origin serial = s := by
  unfold State.claimLifetimeEnd
  split
  next => rfl
  next e found =>
    refine stays e.lifeDue_iff ?_
    rintro ⟨zero, uncleared, unexpired⟩
    rcases State.found_rests notDue found with alive | cleared | expired
    · exact alive zero
    · exact uncleared cleared
    · exact unexpired expired

theorem Record.claims?_iff (r : Record) (serial : Fin 16) :
    r.claims? serial = true ↔ ∃ c ∈ r.claims, c.serial.toFin = serial := by
  rw [Record.claims?, List.any_eq_true]
  simp only [beq_iff_eq]

/-- Withdrawal is judged by a peer's fresh record alone (R139). -/
theorem State.withdrawalMiss_unjudged {s : State} {p : Plan} {e : ClaimEntry} (unjudged : e.origin = p.station ∨
    s.presentRecord e.origin = none ∨ (s.peers.nth e.origin).fresh = false) : s.withdrawalMiss p e = some e := by
  unfold State.withdrawalMiss
  split
  next => rfl
  next r present =>
    refine if_neg ?_
    rw [Bool.and_eq_true, Plan.isPeer, Bool.not_eq_true', beq_eq_false_iff_ne]
    rintro ⟨peer, fresh⟩
    rcases unjudged with own | absent | stale
    · exact peer own
    · rw [absent] at present; cases present
    · rw [stale] at fresh; cases fresh

/-- What a fresh record of the origin makes of an entry (R139). -/
theorem State.withdrawalMiss_judged {s : State} {p : Plan} {e : ClaimEntry} {r : Record}
    (peer : e.origin ≠ p.station) (present : s.presentRecord e.origin = some r)
    (fresh : (s.peers.nth e.origin).fresh = true) : s.withdrawalMiss p e =
      if r.claims? e.serial then some { e with miss := 0 }
      else if e.miss < 2 then some { e with miss := e.miss + 1 } else none := by
  have judged : (p.isPeer e.origin && (s.peers.nth e.origin).fresh) = true := by
    rw [Bool.and_eq_true, Plan.isPeer, Bool.not_eq_true', beq_eq_false_iff_ne]
    exact ⟨peer, fresh⟩
  unfold State.withdrawalMiss
  rw [present]
  dsimp only
  rw [if_pos judged]
  simp only [show e.miss + 1 < 3 ↔ e.miss < 2 from Nat.succ_lt_succ_iff]

theorem State.withdrawalDetected_rests {s : State} {origin : StationId} {serial : Fin 16}
    (notDue : ∀ p, s.plan = some p → ∀ e ∈ s.claims.table, e.origin = origin → e.serial = serial →
      origin = p.station ∨ s.presentRecord origin = none ∨ (s.peers.nth origin).fresh = false ∨ e.miss < 2 ∨
        ∃ r, s.presentRecord origin = some r ∧ ∃ c ∈ r.claims, c.serial.toFin = serial) :
    s.withdrawalDetected origin serial = s := by
  unfold State.withdrawalDetected
  split
  next p e planned found =>
    refine if_neg ?_
    obtain ⟨mem, rfl, rfl⟩ := State.findClaim_mem found
    have rests := notDue p planned e mem rfl rfl
    rw [State.withdrawalDue, Option.isNone_iff_eq_none]
    by_cases unjudged : e.origin = p.station ∨ s.presentRecord e.origin = none ∨ (s.peers.nth e.origin).fresh = false
    · rw [State.withdrawalMiss_unjudged unjudged]; nofun
    · obtain ⟨peer, some_, fresh⟩ : e.origin ≠ p.station ∧ s.presentRecord e.origin ≠ none ∧
          (s.peers.nth e.origin).fresh = true := by
        simpa only [not_or, Bool.not_eq_false] using unjudged
      obtain ⟨r, present⟩ := Option.ne_none_iff_exists'.mp some_
      rw [State.withdrawalMiss_judged peer present fresh]
      have listed_or_few : r.claims? e.serial = true ∨ e.miss < 2 := by
        rcases rests with own | absent | stale | few | ⟨r', present', listed⟩
        · exact absurd own peer
        · exact absurd absent some_
        · rw [stale] at fresh; cases fresh
        · exact .inr few
        · rw [present'] at present; cases present
          exact .inl ((r.claims?_iff _).mpr listed)
      rcases listed_or_few with listed | few
      · rw [if_pos listed]; nofun
      · rw [if_pos few]; split <;> nofun
  next => rfl

/-! ### The channels and the latches -/

/-- A latching command whose condition does not hold, or whose latch is set. -/
theorem latch_rests {α β : Type} {b : Bool} {latch : Option α} {x y : β} {due : Prop} (iff : b = true ↔ due)
    (notDue : ¬ due ∨ latch ≠ none) : (if (b && latch.isNone) = true then x else y) = y := by
  refine if_neg ?_
  rw [Bool.and_eq_true, iff, Option.isNone_iff_eq_none]
  exact fun h => notDue.elim (· h.1) (· h.2)

theorem State.conflictEvent_rests {s : State} {a b : GroupId} (notDue : ¬ a < b ∨ s.pairLit a b = false ∨
    (s.lamps.pairs.nth a).nth b < 12500 ∨ s.lamps.conflict ≠ none) : s.conflictEvent a b = s := by
  refine latch_rests (s.conflictDue_iff a b) ?_
  rcases notDue with order | dark | short | latched
  · exact .inl fun h => order h.1
  · exact .inl fun h => absurd (dark.symm.trans h.2.1) nofun
  · exact .inl fun h => by omega
  · exact .inr latched

theorem State.greenInFlash_rests {s : State} {g : GroupId} (notDue : s.greenLit g = false ∨
    s.lamps.greens.nth g < 12500 ∨ s.lamps.conflict ≠ none) : s.greenInFlash g = s := by
  refine latch_rests (s.greenDue_iff g) ?_
  rcases notDue with dark | short | latched
  · exact .inl fun h => absurd (dark.symm.trans h.1) nofun
  · exact .inl fun h => by omega
  · exact .inr latched

theorem State.redOutEvent_rests {s : State} {g : GroupId} (notDue : s.redDark g = false ∨
    s.lamps.reds.nth g < 31250 ∨ s.lamps.redOut ≠ none) : s.redOutEvent g = s := by
  refine latch_rests (s.redDue_iff g) ?_
  rcases notDue with lit | short | latched
  · exact .inl fun h => absurd (lit.symm.trans h.1) nofun
  · exact .inl fun h => by omega
  · exact .inr latched

/-! ### The rows of log 2, block by block -/

/-- A command whose state method leaves the state completes there. -/
theorem next_of_rests {s t : State} (rests : t = s) : (Host.Outcome.next t : Host.Outcome State Fault Refusal) = .next s :=
  congrArg Host.Outcome.next rests

/-- Settles O3: that every command completes, from `exec_next` and `exec_pending`; the rest by the condition of each
command. -/
theorem everyCommandCompletesAndLeavesTheQueue : Obligations.EveryCommandCompletesAndLeavesTheQueue := by
  refine ⟨?complete, ?modes, ?line, ?peers, ?groups, ?detectors, ?claims, ?lamps⟩
  case complete =>
    intro c s
    obtain ⟨t, e⟩ := exec_next c s
    exact ⟨t, e, exec_pending e⟩
  case modes =>
    intro s
    refine ⟨fun h => next_of_rests (stays s.releaseDue_iff ?_), fun levels => ⟨fun h => ?_, fun cause failed => ?_,
      fun data done => ?_⟩, fun h => next_of_rests (stays s.retryDue_iff ?_),
      fun h => next_of_rests (stays s.checking_iff ?_), fun h => next_of_rests (stays s.startFlashDue_iff ?_),
      fun h => next_of_rests (stays s.allRedDue_iff ?_), fun h => next_of_rests (stays s.selfSettleDue_iff ?_),
      fun h => next_of_rests (stays s.selfPassDue_iff ?_), fun h => next_of_rests (stays s.patternDue_iff ?_)⟩
    · grind
    · have idle : s.transferring ≠ true := by rw [Ne, s.transferring_iff]; grind
      exact ⟨next_of_rests (State.planTransfer_rests idle levels), next_of_rests (State.transferFailure_rests idle levels)⟩
    · exact next_of_rests (State.planTransfer_failed failed)
    · exact next_of_rests (State.transferFailure_done done)
    · rintro ⟨loading, reading, empty, n, attempt, lasted⟩
      rcases h with h | h | h | h
      · exact h loading
      · exact h reading
      · exact h empty
      · exact absurd (h n attempt) (Nat.not_lt.mpr lasted)
    · grind
    · rintro ⟨mode, reached⟩
      exact h.elim (· mode) fun short => State.timer_short short reached
    · rintro ⟨mode, reached⟩
      exact h.elim (· mode) fun short => State.timer_short short reached
    · grind
    · grind
    · grind
  case line =>
    intro s
    refine ⟨fun h line => next_of_rests (State.frameTimerExpiry_rests h _ _), fun h => next_of_rests (if_neg h),
      fun h => next_of_rests (State.joinWindowClose_rests h), fun run h => next_of_rests (State.lineStuck_rests h),
      fun h => next_of_rests (if_neg ?_), fun idle quiet => next_of_rests (stays s.line.inRecord_iff ?_),
      fun h => next_of_rests (stays s.sendDue_iff ?_), fun h => next_of_rests (State.recordTransmissionEnd_rests h),
      fun h => next_of_rests ?_, fun h => next_of_rests ?_, fun run h => next_of_rests ?_,
      fun h => next_of_rests (stays s.ownSlotOver_iff ?_), fun h => next_of_rests (if_neg ?_),
      fun h => next_of_rests (if_neg ?_), fun k h => ?_, fun k n timer => ?_⟩
    · rintro ⟨stuck, ended, long⟩
      unfold tFRM at long
      rcases h with h | h | h
      · exact h stuck
      · exact h ended
      · exact absurd h (Nat.not_lt.mpr long)
    · exact fun h => h.elim (· idle) quiet
    · grind
    · rw [State.collision, Line.readback, if_neg (by rw [beq_iff_eq]; exact h)]
    · rw [State.collision, Line.readback, if_neg (by rw [beq_iff_eq]; exact h)]
    · have calm : ¬ (((s.line.sentBit == some true || s.line.txEnd == some .judging) && decide (run < markLength)) = true) := by
        rw [Bool.and_eq_true, Bool.or_eq_true, beq_iff_eq, beq_iff_eq, decide_eq_true_eq, markLength]
        grind
      rw [State.collision, Line.readback, if_neg calm]
    · grind
    · rintro ⟨timed, last⟩
      unfold tSFH at last
      exact h.elim (· timed) fun early => early (by omega)
    · rintro ⟨listens, last⟩
      unfold listenPeriod at last
      exact h.elim (· listens) fun early => early (by omega)
    · have shut : ∀ t, (s.slotOpen k && s.line.reached t) ≠ true := fun t => by
        rw [Ne, Bool.and_eq_true, State.slotOpen_iff, Line.reached_iff]
        grind
      exact ⟨next_of_rests (if_neg (shut _)), fun _ _ _ => next_of_rests (if_neg (shut _))⟩
    · have before : ∀ t, n < t → (s.slotOpen k && s.line.reached t) ≠ true := fun t less => by
        rw [Ne, Bool.and_eq_true, Line.reached_iff, timer]
        grind
      exact ⟨fun less => next_of_rests (if_neg (before _ less)), fun less _ _ _ => next_of_rests (if_neg (before _ less))⟩
  case peers =>
    intro s
    refine ⟨fun k chars h => next_of_rests (State.peerClassification_rests h),
      fun k h => next_of_rests (State.peerLost_rests h), fun k h => next_of_rests (State.peerAbsent_rests h),
      fun h => next_of_rests (State.startHoldEnd_rests h), fun h => next_of_rests (State.unsetWaitEnd_rests h),
      fun h => next_of_rests (State.divergenceAdoption_rests h), fun h => next_of_rests (if_neg ?_)⟩
    unfold flashHalf
    omega
  case groups =>
    intro s g
    refine ⟨fun h => next_of_rests (State.openGrant_rests h), fun h => next_of_rests (stays (s.prepareDue_iff g) ?_),
      fun h => next_of_rests (stays (s.minGreenDue_iff g) ?_), fun h => next_of_rests (stays (s.gapDue_iff g) ?_),
      fun h => next_of_rests (stays (s.maxDue_iff g) ?_), fun h => next_of_rests (stays (s.clearingDue_iff g) ?_)⟩
    all_goals grind
  case detectors =>
    intro s d
    refine ⟨fun pin h => next_of_rests (State.detectorInputChange_same h),
      fun pulse h => next_of_rests (stays (s.dets.nth d).pulseDue_iff ?_), fun foreign => ?_, fun f local_ => ?_⟩
    · grind
    · have absent : ∀ {p : LocalDef → Prop}, ∀ f, s.localDef d = some f → p f :=
        fun f h => absurd (foreign.symm.trans h) nofun
      exact ⟨next_of_rests (State.initialLevel_rests absent), next_of_rests (State.detectorRisingEdge_rests absent),
        next_of_rests (State.detectorFallingEdge_rests absent), next_of_rests (State.faultStuck_rests absent),
        next_of_rests (State.faultSilent_rests absent)⟩
    · have only {p : LocalDef → Prop} (holds : p f) : ∀ f', s.localDef d = some f' → p f' :=
        fun f' h => (Option.some.inj (local_.symm.trans h)) ▸ holds
      refine ⟨fun h => next_of_rests (State.initialLevel_rests (only h)),
        fun h => ⟨next_of_rests (State.detectorRisingEdge_rests (only ?_)),
          next_of_rests (State.detectorFallingEdge_rests (only ?_))⟩,
        fun h => next_of_rests (State.detectorRisingEdge_rests (only (.inr (.inr (.inr h))))),
        fun h => next_of_rests (State.detectorFallingEdge_rests (only (.inr (.inr (.inr h))))),
        fun h => next_of_rests (State.faultStuck_rests (only h)),
        fun h => next_of_rests (State.faultSilent_rests (only h))⟩
      all_goals exact h.imp_right (·.imp_right .inl)
  case claims =>
    intro s origin serial
    exact ⟨fun h => next_of_rests (State.claimReady_rests h), fun h => next_of_rests (State.claimArrived_rests h),
      fun h => next_of_rests (State.holdEnd_rests h), fun h => next_of_rests (State.claimLifetimeEnd_rests h),
      fun h => next_of_rests (State.withdrawalDetected_rests h)⟩
  case lamps =>
    intro s c a b
    refine ⟨fun h => next_of_rests (stays (Chan.settleDue_iff _) ?_), fun h => next_of_rests (stays (Chan.unDue_iff _) ?_),
      fun h => next_of_rests (stays (Chan.loDue_iff _) ?_), fun h => next_of_rests (State.conflictEvent_rests h),
      fun h => next_of_rests (State.greenInFlash_rests h), fun h => next_of_rests (State.redOutEvent_rests h)⟩
    all_goals grind

end Sys2Proof.Machine
end

section
/-! PROOFS. One tick of time (log 3, 6), block by block. -/

namespace Sys2Proof.Machine

theorem State.tick_dark {s : State} (dark : s.ctrl.mode = .dark) :
    s.tick = { s with panel := s.tick.panel, resetPin := s.tick.resetPin, groups := s.tick.groups } := by
  unfold State.tick
  dsimp only
  rw [if_pos dark]

/-- A tick out of DARK: every block takes its own (R171). -/
theorem State.tick_timed {s : State} (on : s.ctrl.mode ≠ .dark) : s.tick = { s with
    panel := s.tick.panel, resetPin := s.tick.resetPin, groups := s.tick.groups
    planRead := s.planRead.tick
    ctrl := { s.ctrl with timer := s.ctrl.timer.map (· + 1) }
    line := s.line.tick
    cycle := { s.cycle with pairTime := min (s.cycle.pairTime + 1) tPS }
    dets := .tab fun d => if (s.localDef d).isSome then (s.dets.nth d).tick else s.dets.nth d
    claims := s.claims.tick
    lamps := s.tickLamps
    diag := s.diag.map fun r => { r with elapsed := r.elapsed + 1 } } := by
  unfold State.tick
  dsimp only
  rw [if_neg on]

theorem State.tick_panel (s : State) : s.tick.panel = if s.supplyOk then s.panel.tick else s.panel := by
  unfold State.tick
  dsimp only
  split <;> rfl

theorem State.tick_resetPin (s : State) :
    s.tick.resetPin = if s.supplyOk then s.resetPin.tick tRF else s.resetPin := by
  unfold State.tick
  dsimp only
  split <;> rfl

theorem State.tick_dets {s : State} (on : s.ctrl.mode ≠ .dark) (d : LocalId) :
    s.tick.dets.nth d = if (s.localDef d).isSome then (s.dets.nth d).tick else s.dets.nth d := by
  rw [State.tick_timed on]
  exact Table.nth_tab _ d

theorem State.tick_lamps {s : State} (on : s.ctrl.mode ≠ .dark) : s.tick.lamps = s.tickLamps := by
  rw [State.tick_timed on]

/-- The group times, by their conditions (R61, R71, R73). -/
theorem State.tickGroup_eq (s : State) (g : GroupId) : s.tickGroup g =
    { s.groups.nth g with
      time := min ((s.groups.nth g).time + 1) (6250 * 65535)
      gap := if (s.groups.nth g).state = .green ∧ s.gapTimed g = true ∧ (s.groups.nth g).gapped = false ∧
        s.extended g = false then (s.groups.nth g).gap - 1 else (s.groups.nth g).gap
      maxLeft := if (s.groups.nth g).state = .green ∧ (s.groups.nth g).maxRunning = true
        then (s.groups.nth g).maxLeft - 1 else (s.groups.nth g).maxLeft } := by
  simp only [State.tickGroup, Bool.and_eq_true, beq_iff_eq, Bool.not_eq_true', and_assoc]
  rfl

theorem Chan.unRuns_iff (phase : Bool) (ch : Chan) : ch.unRuns phase = true ↔
    ch.settle = none ∧ ch.sensed = true ∧ ch.command.expected phase = false := by
  rw [Chan.unRuns, Chan.judged, Bool.and_eq_true, Bool.and_eq_true, Bool.not_eq_true', Option.isNone_iff_eq_none]
  exact ⟨fun ⟨⟨a, b⟩, c⟩ => ⟨a, c, b⟩, fun ⟨a, c, b⟩ => ⟨⟨a, b⟩, c⟩⟩

theorem Chan.loRuns_iff (phase : Bool) (ch : Chan) : ch.loRuns phase = true ↔
    ch.settle = none ∧ ch.sensed = false ∧ ch.command.expected phase = true := by
  rw [Chan.loRuns, Chan.judged, Bool.and_eq_true, Bool.and_eq_true, Bool.not_eq_true', Option.isNone_iff_eq_none]
  exact ⟨fun ⟨⟨a, b⟩, c⟩ => ⟨a, c, b⟩, fun ⟨a, c, b⟩ => ⟨⟨a, b⟩, c⟩⟩

/-- The channel times, by their conditions (R154, R155, R160). -/
theorem Chan.tick_eq (phase : Bool) (ch : Chan) : ch.tick phase = { ch with
    sense := { ch.sense with time := min (ch.sense.time + 1) 625 }
    settle := ch.settle.map fun n => min (n + 1) 3125
    unTime := if ch.settle = none ∧ ch.sensed = true ∧ ch.command.expected phase = false
      then min (ch.unTime + 1) 31250 else ch.unTime
    loTime := if ch.settle = none ∧ ch.sensed = false ∧ ch.command.expected phase = true
      then min (ch.loTime + 1) 62500 else ch.loTime } := by
  simp only [← Chan.unRuns_iff, ← Chan.loRuns_iff]
  rfl

theorem State.tickLamps_channel (s : State) (c : ChanId) :
    s.tickLamps.channels.nth c = (s.lamps.channels.nth c).tick s.lamps.phase := Table.nth_tab _ c

theorem State.tickLamps_pair (s : State) (a b : GroupId) : (s.tickLamps.pairs.nth a).nth b =
    if a < b ∧ s.pairLit a b = true then min ((s.lamps.pairs.nth a).nth b + 1) 12500
    else (s.lamps.pairs.nth a).nth b := by
  rw [State.tickLamps]
  dsimp only
  rw [Table.nth_tab, Table.nth_tab]
  simp only [Bool.and_eq_true, decide_eq_true_eq]
  rfl

/-- Settles O2: the two ways of an empty queue, and a tick block by block. -/
theorem emptyQueueTicksOrRaisesADueEvent : Obligations.EmptyQueueTicksOrRaisesADueEvent := by
  refine ⟨?queue, ?groups, ?inputs, ?timed⟩
  case queue =>
    intro s empty
    have onIdle : step s = .next s.idle := by unfold step; rw [empty]
    refine ⟨fun quiet => by rw [onIdle, State.idle_none quiet], fun busy => ?_⟩
    obtain ⟨e, mem, n, taken⟩ := State.idle_some busy
    exact ⟨e, mem, n, by rw [onIdle, taken]⟩
  case groups =>
    intro s g
    rw [State.tick_nth, State.tickGroup_eq]
  case inputs =>
    intro s
    refine ⟨fun low => ?_, fun high => ?_, State.tick_dark⟩
    · rw [State.tick_panel, State.tick_resetPin, low]
      exact ⟨rfl, rfl⟩
    · rw [State.tick_panel, State.tick_resetPin, high]
      exact ⟨rfl, rfl⟩
  case timed =>
    intro s on
    refine ⟨?_, State.tick_dets on, fun c => ?channel, fun a b => ?pair, fun g => ?green, fun g => ?red, ?self, ?lamps⟩
    · rw [State.tick_timed on]; rfl
    all_goals rw [State.tick_lamps on]
    case channel =>
      rw [State.tickLamps_channel, Chan.tick_eq]
      rfl
    case pair => exact s.tickLamps_pair a b
    case green => exact Table.nth_tab _ g
    case red => exact Table.nth_tab _ g
    case self => rfl
    case lamps => rfl

end Sys2Proof.Machine
end

section
/-! PROOFS. What follows an event (R66, R71, R73, R87, R115, R151, R176). -/

namespace Sys2Proof.Machine

/-! ### Calls and timers -/

theorem State.follow_eq (s : State) : s.follow = { s with callers := s.follow.callers, groups := s.follow.groups } := rfl

/-- A locking caller joins a group that is not GREEN (R115). -/
theorem State.follow_callers (s : State) (g : GroupId) (d : LocalId) :
    BitSet.has (s.follow.callers.nth g) d =
      (BitSet.has (s.callers.nth g) d || (!((s.groups.nth g).state == .green) && s.callsLocking d g)) := by
  have joined : s.follow.callers.nth g = if (s.groups.nth g).state = .green then s.callers.nth g
      else s.callers.nth g ||| bitsOf fun d => s.callsLocking d g := Table.nth_tab _ g
  rw [joined]
  split
  next green => rw [green, beq_self_eq_true, Bool.not_true, Bool.false_and, Bool.or_false]
  next other =>
    rw [BitSet.has_or, BitSet.has_bitsOf, beq_eq_false_iff_ne.mpr other, Bool.not_false, Bool.true_and]

theorem State.follow_conflictingCall (s : State) (g : GroupId) :
    s.joinCallers.conflictingCall g = s.follow.conflictingCall g := rfl

/-- The green timers of a VEHICLE group (R71, R73). -/
theorem State.follow_green {s : State} {g : GroupId} (green : (s.groups.nth g).state = .green)
    (vehicle : (s.groupPlan g).kind = .vehicle) : s.follow.groups.nth g = { s.groups.nth g with
      gap := if s.gapTimed g = true ∧ (s.groups.nth g).gapped = false ∧ s.extended g = true
        then 6250 * (s.groupPlan g).tGAP else (s.groups.nth g).gap
      maxRunning := (s.groups.nth g).maxRunning || s.follow.conflictingCall g
      maxLeft := if (s.groups.nth g).maxRunning = false ∧ s.follow.conflictingCall g = true
        then 6250 * (s.groupPlan g).tMAX else (s.groups.nth g).maxLeft } := by
  have same : s.joinCallers.gapTimed g = s.gapTimed g ∧ s.joinCallers.extended g = s.extended g ∧
      s.joinCallers.groupPlan g = s.groupPlan g := ⟨rfl, rfl, rfl⟩
  obtain ⟨gapTimed, extended, planned⟩ := same
  rw [s.follow_nth, State.judgeGreen, if_pos ⟨green, vehicle⟩, gapTimed, extended, planned, s.follow_conflictingCall]
  dsimp only
  simp only [Bool.not_eq_true', show tenth = 6250 from rfl]
  generalize s.groups.nth g = r
  obtain ⟨state, held, time, minDone, gapped, gap, running, maxLeft, maxDone⟩ := r
  cases running <;> cases s.follow.conflictingCall g <;> split <;> simp_all

theorem State.follow_standing {s : State} {g : GroupId}
    (standing : (s.groups.nth g).state ≠ .green ∨ (s.groupPlan g).kind ≠ .vehicle) :
    s.follow.groups.nth g = s.groups.nth g := by
  rw [s.follow_nth]
  exact if_neg fun h => standing.elim (· h.1) (· h.2)

/-! ### Grants and the steps of one moment -/

/-- The lowest-numbered group that is clear to open leaves RED (R66). -/
theorem State.grantStep_lowest {s : State} {g : GroupId} (clear : s.clearToOpen g = true)
    (lowest : ∀ h, h < g → s.clearToOpen h = false) : s.grantStep = some (s.leaveRed g) := by
  rw [State.grantStep, firstFin_eq clear lowest]
  rfl

theorem State.grantStep_eq_none {s : State} (shut : ∀ g, s.clearToOpen g = false) : s.grantStep = none := by
  rw [State.grantStep, Option.map_eq_none_iff]
  exact List.find?_eq_none.mpr fun g _ => by rw [shut g]; nofun

theorem State.settle_grant {s u : State} (n : Nat) (granted : s.grantStep = some u) :
    State.settle (n + 1) s = State.settle n u.follow := by
  rw [State.settle, granted]

theorem State.settle_seq {s u : State} (n : Nat) (ungranted : s.grantStep = none) (stepped : s.seqStep = some u) :
    State.settle (n + 1) s = State.settle n u.follow := by
  rw [State.settle, ungranted, stepped]

theorem State.settle_rest {s : State} (n : Nat) (ungranted : s.grantStep = none) (unstepped : s.seqStep = none) :
    State.settle (n + 1) s = s := by
  rw [State.settle, ungranted, unstepped]

/-! ### The end of the flash entry wait -/

theorem State.waitOver_iff (s : State) :
    s.waitOver = true ↔ s.ctrl.wait = true ∧ s.ctrl.mode = .running ∧ s.movingCount = 0 := by
  rw [State.waitOver, Bool.and_eq_true, Bool.and_eq_true, beq_iff_eq, beq_iff_eq, and_assoc]

theorem State.endWait_over {s : State} (ended : s.waitOver = true) : s.endWait = (s.enterMode .panelFlash).follow :=
  if_pos ended

theorem State.endWait_open {s : State} (waits : s.waitOver ≠ true) : s.endWait = s := if_neg waits

theorem State.raceWait_over {s : State} (ended : s.waitOver = true) :
    s.raceWait = { s with freeCount := s.freeCount + 1 } ∨
      s.raceWait = State.endWait { s with freeCount := s.freeCount + 1 } := by
  unfold State.raceWait
  rw [if_pos ended]
  dsimp only
  split
  · exact .inr rfl
  · exact .inl rfl

theorem State.raceWait_open {s : State} (waits : s.waitOver ≠ true) : s.raceWait = s := if_neg waits

/-- Settles O4: the parts of what follows an event, each by its rule. -/
theorem whatFollowsAnEventLeavesTheRest : Obligations.WhatFollowsAnEventLeavesTheRest := by
  refine ⟨fun s => ⟨s.react_follows, s.react_ctrl⟩, fun s => rfl,
    fun n s => ⟨rfl, fun u => s.settle_grant n, fun u => s.settle_seq n, s.settle_rest n⟩,
    fun s => ⟨fun g => s.grantStep_lowest, s.grantStep_eq_none⟩, fun s => ?wait,
    fun s g => ⟨s.follow_eq, s.follow_callers g, s.follow_standing, s.follow_green⟩,
    fun s d => ⟨s.occupied_iff d, s.faulted_iff d⟩, State.callsLocking_iff, State.remoteOn_iff,
    fun s g => ⟨s.hasCall_iff g, s.conflictingCall_iff g, s.extended_iff g, s.gapTimed_iff g, s.movingCount_eq_zero⟩⟩
  case wait =>
    rw [← s.waitOver_iff]
    exact ⟨fun ended => ⟨State.endWait_over ended, State.raceWait_over ended⟩,
      fun waits => ⟨State.endWait_open waits, State.raceWait_open waits⟩⟩

end Sys2Proof.Machine
end

section
/-! PROOFS. Start-up reset and its release (R170, R171, R193, R194). -/

namespace Sys2Proof.Machine

/-! ### The RESET line -/

theorem Filter.take_low (limit : Nat) (f : Filter) (l : Bool) (held : Nat) :
    f.take false limit l held = { f with raw := l } := rfl

theorem Filter.take_supplied (limit : Nat) (f : Filter) (l : Bool) (held : Nat) : f.take true limit l held =
    { raw := l, time := min held limit, level := if limit ≤ held then some l else f.level } := rfl

/-- A RESET line that is low starts nothing while the filtered level is asserted, or while it is too short (R194). -/
theorem State.startUpReset_low {s : State} {held : Nat}
    (quiet : (s.sampleReset true held).resetPin.asserted = false ∨ s.resetPin.asserted = true) :
    s.startUpReset (.resetLine held) = s.sampleReset true held := by
  refine if_neg ?_
  rw [Bool.and_eq_true, Bool.not_eq_true']
  rintro ⟨asserted, before⟩
  rcases quiet with none_ | standing
  · rw [none_] at asserted; cases asserted
  · rw [standing] at before; cases before

/-- A cause of start-up reset puts every block to its reset; the inputs are the cause's (R170, R171). -/
theorem State.startUpReset_resets {s : State} {cause : ResetCause} (causes : cause = .powerOn ∨ cause = .supplyFall ∨
    ∃ held, cause = .resetLine held ∧ tRF ≤ held ∧ s.supplyOk = true ∧ s.resetPin.level ≠ some true) :
    ∃ ok pin panel, s.startUpReset cause = { s.resetAll with supplyOk := ok, resetPin := pin, panel := panel } := by
  rcases causes with rfl | rfl | ⟨held, rfl, long, supplied, released⟩
  · exact ⟨_, _, _, rfl⟩
  · exact ⟨_, _, _, rfl⟩
  · exact ⟨_, _, _, State.startUpReset_resetLine supplied long released⟩

/-- What the RESET line of its cause leaves of the inputs (R193, R194). -/
theorem State.startUpReset_line_inputs {s : State} {held : Nat} (supplied : s.supplyOk = true) (long : tRF ≤ held)
    (released : s.resetPin.level ≠ some true) :
    (s.startUpReset (.resetLine held)).panel = s.panel ∧
    (s.startUpReset (.resetLine held)).supplyOk = s.supplyOk ∧
    (s.startUpReset (.resetLine held)).resetPin = { raw := true, time := 63, level := some true } := by
  rw [State.startUpReset_resetLine supplied long released]
  refine ⟨rfl, rfl, ?_⟩
  show s.resetPin.take s.supplyOk tRF true held = _
  rw [supplied, Filter.take_supplied, if_pos long, Nat.min_eq_right long]
  rfl

/-- On the supply the filters start afresh (R193). -/
theorem State.startUpReset_supply_inputs {s : State} {cause : ResetCause} (supply : cause = .powerOn ∨ cause = .supplyFall) :
    (s.startUpReset cause).supplyOk = false ∧ (s.startUpReset cause).resetPin = s.resetPin.restart ∧
      (s.startUpReset cause).panel = s.panel.restart := by
  rcases supply with rfl | rfl <;> exact ⟨rfl, rfl, rfl⟩

theorem State.startUpReset_inputs {s : State} {cause : ResetCause} (causes : cause = .powerOn ∨ cause = .supplyFall ∨
    ∃ held, cause = .resetLine held ∧ tRF ≤ held ∧ s.supplyOk = true ∧ s.resetPin.level ≠ some true) :
    ((∃ held, cause = .resetLine held) → (s.startUpReset cause).panel = s.panel ∧
      (s.startUpReset cause).supplyOk = s.supplyOk ∧
      (s.startUpReset cause).resetPin = { raw := true, time := 63, level := some true }) ∧
    ((∀ held, cause ≠ .resetLine held) → (s.startUpReset cause).supplyOk = false ∧
      (s.startUpReset cause).resetPin = s.resetPin.restart ∧ (s.startUpReset cause).panel = s.panel.restart) := by
  rcases causes with power | fall | ⟨held, rfl, long, supplied, released⟩
  · exact ⟨fun ⟨_, line⟩ => absurd (power.symm.trans line) nofun, fun _ => State.startUpReset_supply_inputs (.inl power)⟩
  · exact ⟨fun ⟨_, line⟩ => absurd (fall.symm.trans line) nofun, fun _ => State.startUpReset_supply_inputs (.inr fall)⟩
  · exact ⟨fun _ => State.startUpReset_line_inputs supplied long released, fun other => absurd rfl (other held)⟩

/-- Settles O5: the reset values by `startUpReset_resets`, the inputs by `startUpReset_inputs`. -/
theorem startUpResetPutsEveryBlockToItsReset : Obligations.StartUpResetPutsEveryBlockToItsReset := by
  refine ⟨fun s cause causes => ?reset, fun s held => ⟨fun supplied short => ?short, fun supplied asserted => ?standing,
    fun low => ?low, fun supplied high => ?high⟩⟩
  case reset =>
    obtain ⟨ok, pin, panel, resets⟩ := State.startUpReset_resets causes
    obtain ⟨line, supply⟩ := State.startUpReset_inputs causes
    generalize taken : s.startUpReset cause = t at resets line supply
    subst resets
    refine ⟨_, congrArg Host.Outcome.next taken, rfl, rfl, rfl, rfl, fun k => Table.nth_tab _ k, rfl, rfl, rfl,
      fun g => Table.nth_tab _ g, rfl, fun d => Table.nth_tab _ d, fun r => Table.nth_tab _ r,
      fun g => Table.nth_tab _ g, rfl, fun c => Table.nth_tab _ c, rfl, rfl, rfl, rfl, fun a b => ?pair,
      fun g => Table.nth_tab _ g, fun g => Table.nth_tab _ g, rfl, rfl, rfl, rfl, rfl, rfl, rfl, rfl, fun _ => rfl, rfl,
      line, fun other => ?supply, rfl, rfl⟩
    case pair =>
      show (Lamps.reset.pairs.nth a).nth b = 0
      rw [Lamps.reset]
      dsimp only
      rw [Table.nth_tab, Table.nth_tab]
    case supply =>
      obtain ⟨low, restarted, panels⟩ := supply other
      rw [panels]
      exact ⟨low, restarted, rfl, rfl, rfl, rfl, rfl, rfl⟩
  case short =>
    have taken : s.resetPin.take true tRF true held = { raw := true, time := held, level := s.resetPin.level } :=
      Filter.sample_short _ _ _ _ short
    have next : s.sampleReset true held =
        { s with resetPin := { raw := true, time := held, level := s.resetPin.level } } := by
      rw [State.sampleReset, supplied, taken]
    refine next_of_rests ((State.startUpReset_low ?_).trans next)
    rw [next]
    exact (Bool.eq_false_or_eq_true s.resetPin.asserted).symm
  case standing =>
    refine next_of_rests ((State.startUpReset_low (.inr (by rw [Filter.asserted, asserted]; rfl))).trans ?_)
    rw [State.sampleReset, supplied, Filter.take_supplied, asserted, ite_self]
    rfl
  case low =>
    have next : s.sampleReset true held = { s with resetPin := { s.resetPin with raw := true } } := by
      rw [State.sampleReset, low, Filter.take_low]
    refine next_of_rests ((State.startUpReset_low ?_).trans next)
    rw [next]
    exact (Bool.eq_false_or_eq_true s.resetPin.asserted).symm
  case high =>
    refine next_of_rests ?_
    rw [State.startUpReset, State.sampleReset, supplied, Filter.take_supplied, high, ite_self]
    rfl

/-! ### The release of start-up reset -/

theorem State.resetRelease_due {s : State} (due : s.releaseDue = true) :
    s.resetRelease = (s.released.enterMode .loading).react := if_pos due

/-- LOADING is entered without a wait, so what follows leaves it (R171). -/
theorem State.enterMode_react_ctrl (s : State) (m : Mode) : (s.enterMode m).react.ctrl = (s.enterMode m).ctrl :=
  State.react_ctrl_of_not_waiting (by rw [s.enterMode_ctrl])

theorem dueIf_mem {b : Bool} (due : b = true) (e : Instr) : e ∈ dueIf b e := by
  rw [dueIf, if_pos due]
  exact List.mem_singleton_self e

/-- A release that is due is one of the due events (log 3). -/
theorem State.releaseDue_queued {s : State} (due : s.releaseDue = true) : .resetRelease ∈ s.dueEvents :=
  List.mem_append_left _ (List.mem_append_right _ (dueIf_mem due _))

/-- Settles O6: the release is due and taken; the inputs one by one. -/
theorem resetReleaseStartsLoading : Obligations.ResetReleaseStartsLoading := by
  refine ⟨fun s dark fresh supplied free => ?release, fun f => ?initial, fun s held => ?rests,
    fun s held => ⟨rfl, fun low => ?low, fun supplied => ?high⟩⟩
  case release =>
    have due : s.releaseDue = true := s.releaseDue_iff.mpr ⟨dark, supplied, free⟩
    have taken := State.resetRelease_due due
    have panel : s.resetRelease.panel = s.panel.takeInitial := by
      rw [taken, State.react_panel, State.enterMode_panel]; rfl
    have line : s.resetRelease.line = { s.line with frameTimer := some 0 } := by
      rw [taken, State.react_line, State.enterMode_line]; rfl
    have cycle : s.resetRelease.cycle = { s.cycle with
        requested := s.panel.takeInitial.pairValue, pair := s.panel.takeInitial.pairValue, pairTime := 0 } := by
      rw [taken, State.react_cycle, State.enterMode_cycle]; rfl
    have read : s.resetRelease.planRead = { PlanRead.reset with
        readState := .reading, port := transferItems 0 64, attempt := some 0 } := by
      rw [State.resetRelease_planRead due, fresh]; rfl
    refine ⟨State.releaseDue_queued due, s.resetRelease, rfl, ?_, ?_, line, read, panel, cycle, ?_⟩
    · rw [panel, line, cycle, read]
      rw [taken, State.released, fresh]
      rfl
    · rw [taken, State.enterMode_react_ctrl, State.enterMode_mode]
    · rw [taken]
      simp [State.released, supplied]
  case initial =>
    unfold Filter.takeInitial
    cases level : f.level with
    | none => exact ⟨rfl, rfl, rfl⟩
    | some l => exact ⟨rfl, rfl, level⟩
  case rests =>
    refine next_of_rests (stays s.releaseDue_iff ?_)
    grind
  case low =>
    refine next_of_rests ?_
    rw [State.startUpReset, State.sampleReset, low, Filter.take_low]
  case high =>
    refine next_of_rests ?_
    rw [State.startUpReset, State.sampleReset, supplied, Filter.take_supplied]
    rfl

end Sys2Proof.Machine
end

section
/-! PROOFS. The corridor line: marks, runs, boundaries and the record being sent (R1 to R12, R19). -/

namespace Sys2Proof.Machine

/-! ### The expiry -/

theorem Line.markOf_eq (l : Line) : l.markOf = if l.cycleMarkReq then 96 else 32 := rfl

theorem drivesAt_iff (run : Option Nat) : drivesAt run = true ↔ run = none ∨ ∃ a, run = some a ∧ a ≤ 16 := by
  cases run with
  | none => exact iff_of_true rfl (.inl rfl)
  | some a =>
    rw [drivesAt, Option.all_some, decide_eq_true_eq]
    exact ⟨fun h => .inr ⟨a, rfl, h⟩, fun h => h.elim nofun fun ⟨_, same, less⟩ => Option.some.inj same ▸ less⟩

/-- What an expiry gives, by line state (R6, R7, R10). -/
def Line.expire (l : Line) (age : Nat) (run : Option Nat) (reaches : Bool) : Line :=
  match l.st with
  | .active =>
    if drivesAt run then
      { l with
        markDrive := some l.markOf
        run := if reaches then some (run.getD 0) else run
        pending := some { age := age, run := run.isSome || reaches } }
    else { l with run := run, pending := some { age := age, run := true } }
  | .listen | .silentFault => { l with run := run, pending := some { age := age, run := run.isSome } }
  | .off | .stuck => { l with pending := some { age := age, run := false } }

theorem State.frameTimerExpiry_eq {s : State} {age : Nat} (timer : s.line.frameTimer = some (6250 + age))
    (open_ : s.line.pending = none) (run : Option Nat) (reaches : Bool) :
    s.frameTimerExpiry run reaches = { s with line := s.line.expire age run reaches } := by
  have reached : ¬ 6250 + age < tFRM := by unfold tFRM; omega
  have past : 6250 + age - tFRM = age := by unfold tFRM; omega
  unfold State.frameTimerExpiry
  rw [timer, open_]
  dsimp only
  rw [if_neg reached, past]
  unfold Line.expire
  cases s.line.st with
  | active => dsimp only; split <;> rfl
  | listen | silentFault | off | stuck => rfl

/-- Settles O8: the expiry by line state, as `Line.expire` has it. -/
theorem markDriveAtTheExpiry : Obligations.MarkDriveAtTheExpiry := by
  refine ⟨fun s run reaches age timer open_ => ?expiry, fun s driven => next_of_rests (if_pos driven)⟩
  case expiry =>
    have next (l : Line) (taken : s.line.expire age run reaches = l) :
        exec (.frameTimerExpiry { run := run, reaches := reaches }) s = .next { s with line := l } :=
      next_of_rests (taken ▸ State.frameTimerExpiry_eq timer open_ run reaches)
    refine ⟨fun active drives => next _ ?_, fun active a late less => next _ ?_, fun waits => next _ ?_,
      fun dead => next _ ?_⟩
    · simp [Line.expire, active, (drivesAt_iff run).mpr drives, Line.markOf_eq]
    · have stays_ : drivesAt run ≠ true := fun drives => by
        rcases (drivesAt_iff run).mp drives with none_ | ⟨b, same, early⟩
        · rw [none_] at late; cases late
        · rw [same] at late; cases late; omega
      simp [Line.expire, active, stays_]
    · rcases waits with st | st <;> simp [Line.expire, st]
    · rcases dead with st | st <;> simp [Line.expire, st]

/-! ### Runs and boundaries -/

theorem State.ownSlot_iff (s : State) (k : StationId) : s.ownSlot k = true ↔ ∃ p, s.plan = some p ∧ p.station = k := by
  rw [State.ownSlot, Option.any_eq_true]
  simp only [beq_iff_eq]

/-- The line record as a run ends: no run is under way (R1). -/
def Line.runOver (l : Line) : Line := { l with run := none, recessive := 0 }

theorem State.dominantRunEnd_received {s : State} {len : Nat} (receives : s.line.st.receiving = true) (short : len ≤ 200)
    (edge : Bool) : s.dominantRunEnd len edge =
      if s.line.resolves len then
        State.frameBoundary { s with line := s.line.runOver.afterRun len } (runClass len == .cycleMark) len s.judgedOutcome
      else if (runClass len).valid then
        State.frameBoundary { s with line := s.line.runOver.afterRun len } (runClass len == .cycleMark) len
          (s.cutOutcome (s.line.frameTimer.getD 0 - len) edge)
      else { s with line := s.line.runOver.afterRun len } := by
  have free : runClass len ≠ .stuck := by
    obtain ⟨_, _, _, _, stuck⟩ := runClass_iff len
    rw [Ne, stuck]
    omega
  rw [s.dominantRunEnd_eq, if_pos receives, State.runEnd_eq, if_neg free]
  rfl

/-- Settles O9: `frameBoundary_taken` on the line record after the run. -/
theorem runEndGivesAFrameBoundary : Obligations.RunEndGivesAFrameBoundary := by
  refine ⟨Line.resolves_iff, fun s k => ⟨s.ownSlot_iff k, rfl, fun age edge => ?cut⟩, State.remoteValue_cases,
    fun s len edge receives short gives => ?boundary⟩
  case cut => rfl
  case boundary =>
    have taken : ∃ o, o = (if s.line.resolves len then s.judgedOutcome
        else s.cutOutcome (s.line.frameTimer.getD 0 - len) edge) ∧ s.dominantRunEnd len edge =
          State.frameBoundary { s with line := s.line.runOver.afterRun len } (runClass len == .cycleMark) len o := by
      refine ⟨_, rfl, ?_⟩
      rw [State.dominantRunEnd_received receives short]
      by_cases resolves : s.line.resolves len = true
      · rw [if_pos resolves, if_pos resolves]
      · rw [if_neg resolves, if_neg resolves, if_pos (gives.resolve_left resolves)]
    obtain ⟨o, outcome, boundary⟩ := taken
    obtain ⟨q, x, line⟩ := State.frameBoundary_line { s with line := s.line.runOver.afterRun len }
      (runClass len == .cycleMark) len o
    obtain ⟨_, _, _, _, _, malformed, slips, run, recessive⟩ := Line.boundary_law (s.line.runOver.afterRun len) len
    refine ⟨_, rfl, ?_, ?_⟩
    · rw [boundary, ← outcome]
      exact s.frameBoundary_taken (s.line.runOver.afterRun len) _ len o
    · rw [boundary, line]
      exact ⟨malformed, slips, run, recessive⟩

/-- Settles O10: the class by length, and a run that gives no boundary. -/
theorem runClassAndRunsWithoutABoundary : Obligations.RunClassAndRunsWithoutABoundary := by
  refine ⟨runClass_iff, fun l => ?_, fun s len edge => ⟨fun receives short away invalid => next_of_rests ?_,
    fun deaf => next_of_rests ?_⟩⟩
  · rw [Line.inRecord_iff, Option.isSome_iff_ne_none]
  · rw [State.dominantRunEnd_received receives short, away, invalid]
    rfl
  · rw [s.dominantRunEnd_eq, deaf]
    rfl

/-- Settles O11: the silent boundary by line state. -/
theorem joinWindowCloseGivesASilentBoundary : Obligations.JoinWindowCloseGivesASilentBoundary := by
  refine ⟨fun s k => rfl, fun s q pending late silent => ⟨_, rfl, ?_⟩⟩
  have closed : ¬ q.age < tJW := by unfold tJW; omega
  have taken : s.joinWindowClose =
      s.frameBoundary false q.age (if s.line.st = .stuck then s.stuckOutcome else s.judgedOutcome) := by
    unfold State.joinWindowClose
    rw [pending]
    dsimp only
    rw [if_neg closed]
    cases st : s.line.st with
    | stuck => rw [if_pos rfl]
    | off => rw [if_neg (show ¬ LineState.off = .stuck from nofun)]
    | listen | active | silentFault =>
      have none_ : q.run = false := silent (by rw [st]; rfl)
      rw [none_]
      rfl
  rw [taken]
  exact s.frameBoundary_taken s.line false q.age _

/-- The line record of `becomeStuck`, item by item (R12, R19). -/
theorem Line.becomeStuck_items (l : Line) (run : Nat) : l.becomeStuck run = { l with
    markDrive := none, sending := none, st := .stuck, run := some run, recessive := 0
    slips := if l.inRecord = true then l.slips + 1 else l.slips
    txEnd := if l.inRecord = true then some .slip else l.txEnd } := by
  unfold Line.becomeStuck Line.slip
  split <;> rfl

theorem State.drivesDominant_of_silent {s : State} (mark : s.line.markDrive = none) (record : s.line.sending = none) :
    s.drivesDominant = false := by
  rw [s.drives_sent mark, Line.sentBit_idle record]
  rfl

/-- Settles O12: `lineStuck_eq` with and without a pending expiry. -/
theorem lineStuckReleasesTheLine : Obligations.LineStuckReleasesTheLine := by
  intro s run receives long
  have due : s.line.stuckBy run = true := (s.line.stuckBy_iff run).mpr ⟨receives, long⟩
  refine ⟨s.lineStuck run, rfl, ?_⟩
  rw [s.lineStuck_eq, if_pos due]
  cases pending : s.line.pending with
  | none =>
    refine ⟨rfl, State.drivesDominant_of_silent rfl rfl, fun _ => ?_, nofun⟩
    rw [Line.becomeStuck_items]
  | some q =>
    obtain ⟨request, snapshot, line⟩ := State.frameBoundary_line { s with line := s.line.becomeStuck run } false q.age
      s.judgedOutcome
    obtain ⟨stuck, mark⟩ := Line.boundary_stuck (s.line.becomeStuck run) q.age rfl
    obtain ⟨_, _, sending, _⟩ := Line.boundary_law (s.line.becomeStuck run) q.age
    refine ⟨?_, State.drivesDominant_of_silent ?_ ?_, nofun, fun q' same => ?_⟩
    · rw [line]; exact stuck
    · rw [line]; exact mark rfl
    · rw [line]; exact sending
    · cases same
      rw [← Line.becomeStuck_items]
      exact s.frameBoundary_taken (s.line.becomeStuck run) false q.age s.judgedOutcome

/-! ### The record being sent -/

theorem Line.slip_inRecord {l : Line} (sends : l.inRecord = true) :
    l.slip = { l with sending := none, txEnd := some .slip, slips := l.slips + 1 } := if_pos sends

/-- Settles O13: the begin at the own lead-in, the cut, and the level driven bit by bit. -/
theorem recordTransmissionBeginsAndIsCut : Obligations.RecordTransmissionBeginsAndIsCut := by
  refine ⟨fun s p planned begins idle open_ staged => ⟨fun active => next_of_rests (if_pos ?_),
    fun other => next_of_rests (stays s.sendDue_iff fun due => other due.1)⟩, fun s sends => next_of_rests ?_,
    fun s => ⟨fun mark => ?_, State.drivesDominant_of_silent⟩, fun s i b char mark => ⟨fun at_ => ?_,
    fun j less at_ => ?_, fun at_ => ?_⟩⟩
  · exact s.sendDue_iff.mpr ⟨active, idle, open_, staged, p, planned, begins⟩
  · have record : s.line.inRecord = true := by rw [Line.inRecord_iff, ← Option.isSome_iff_ne_none]; exact sends
    rw [State.frameSlip, if_pos record, Line.slip_inRecord record]
    rfl
  · rw [State.drivesDominant, mark]; rfl
  · rw [s.drives_bit i 0 b char (by decide) mark at_, (charBits_bits b true).1]
    rfl
  · rw [s.drives_bit i (1 + j) b char (by omega) mark (by rw [at_, Nat.add_assoc]), (charBits_bits b true).2.1 j less]
  · rw [s.drives_bit i 9 b char (by decide) mark at_, (charBits_bits b true).2.2]
    rfl

theorem Line.sentBit_none {l : Line} (over_ : l.sending = none ∨ ∃ n, l.sending = some n ∧ 10 * l.snapshot.length ≤ n) :
    l.sentBit = none := by
  rcases over_ with idle | ⟨n, at_, past⟩
  · exact Line.sentBit_idle idle
  · rw [Line.sentBit_at at_, recordBits_end _ _ past]

/-- The bits of a character as they are sent (R2, R11). -/
theorem Line.sentBit_char {l : Line} {i : Nat} {b : Byte} (char : l.snapshot[i]? = some b) :
    (l.sending = some (10 * i) → l.sentBit = some false) ∧
    (∀ j, j < 8 → l.sending = some (10 * i + 1 + j) → l.sentBit = some (b.getLsbD j)) ∧
    (l.sending = some (10 * i + 9) → l.sentBit = some true) := by
  obtain ⟨start, data, stop⟩ := charBits_bits b true
  refine ⟨fun at_ => ?_, fun j less at_ => ?_, fun at_ => ?_⟩
  · rw [Line.sentBit_bit i 0 b char (by decide) at_, start]
  · rw [Line.sentBit_bit i (1 + j) b char (by omega) (by rw [at_, Nat.add_assoc]), data j less]
  · rw [Line.sentBit_bit i 9 b char (by decide) at_, stop]

theorem Line.readback_recessive {l : Line} (sent : l.sentBit = some false) : l.readback .recessive = l.collide := by
  rw [Line.readback, sent]; rfl

theorem Line.readback_dominant {l : Line} (sent : l.sentBit = some true) :
    l.readback (.dominant none) = { l with sending := none, txEnd := some .judging } := by
  rw [Line.readback, sent]; rfl

/-- A mismatch is judged by the length of the run that caused it (R12). -/
theorem Line.readback_ended {l : Line} (judged : l.sentBit = some true ∨ l.txEnd = some .judging) (run : Nat) :
    l.readback (.dominant (some run)) = if run < 24 then l.collide else l := by
  have watched : (l.sentBit == some true || l.txEnd == some .judging) = true := by
    rw [Bool.or_eq_true, beq_iff_eq, beq_iff_eq]
    exact judged
  rw [Line.readback, watched, Bool.true_and]
  by_cases short : run < 24
  · rw [if_pos short]
    exact if_pos (decide_eq_true short)
  · rw [if_neg short]
    exact if_neg fun h => short (of_decide_eq_true h)

theorem Line.readback_as_sent {l : Line} (sent : l.sentBit = some false) (open_ : l.txEnd = none) (run : Nat) :
    l.readback (.dominant (some run)) = l := by
  rw [Line.readback, sent, open_]; rfl

/-- The own slot's end counts the transmission (R11, R13). -/
theorem State.ownSlotEnd_counts {s : State} {p : Plan} {t0 : Nat} {e : TxEnd} (planned : s.plan = some p)
    (timer : s.line.frameTimer = some t0) (ended : 250 + 360 * (p.station.val + 1) ≤ t0) (sent : s.line.txEnd = some e) :
    s.ownSlotEnd = { s with line := s.line.countTransmission } :=
  if_pos (s.ownSlotOver_iff.mpr ⟨by rw [sent]; nofun, p, t0, planned, timer, ended⟩)

/-! ### The count of a transmission (R13) -/

theorem Line.countTransmission_uncounted {l : Line} (ended : l.txEnd = none ∨ l.txEnd = some .slip ∨ l.txEnd = some .judging) :
    l.countTransmission = { l with txEnd := none } := by
  unfold Line.countTransmission
  rcases ended with e | e | e <;> rw [e]

theorem Line.countTransmission_clean {l : Line} (ended : l.txEnd = some .clean) :
    l.countTransmission = { l with txEnd := none, collisionRun := 0 } := by
  unfold Line.countTransmission
  rw [ended]

theorem Line.countTransmission_collision {l : Line} (ended : l.txEnd = some .collision) (few : l.collisionRun < 2) :
    l.countTransmission = { l with txEnd := none, collisionRun := l.collisionRun + 1 } := by
  unfold Line.countTransmission
  rw [ended]
  exact if_pos (by unfold collisionLimit; omega)

theorem Line.countTransmission_fault {l : Line} (ended : l.txEnd = some .collision) (third : 2 ≤ l.collisionRun) :
    l.countTransmission = Line.toSilentFault { l with txEnd := none } := by
  unfold Line.countTransmission
  rw [ended]
  exact if_neg (by unfold collisionLimit; omega)

theorem Line.toSilentFault_timed {l : Line} (budget : l.budget ≠ 0) : l.toSilentFault = { l with
    collisionRun := 0, st := if l.st = .stuck then .stuck else .silentFault, budget := 0, sfKind := .timed, sfHold := 0
    markDrive := none, sending := none } := if_neg budget

theorem Line.toSilentFault_permanent {l : Line} (budget : l.budget = 0) : l.toSilentFault = { l with
    collisionRun := 0, st := if l.st = .stuck then .stuck else .silentFault, sfKind := .permanent
    markDrive := none, sending := none } := if_pos budget

theorem exec_collision {s : State} {r : Readback} {l : Line} (read : s.line.readback r = l) :
    exec (.collision r) s = .next { s with line := l } := read ▸ rfl

theorem State.collision_same {s : State} {r : Readback} (read : s.line.readback r = s.line) : s.collision r = s := by
  rw [State.collision, read]

/-- Settles O14: the bits sent, the level read back by the bit that is sent, and the count at the own slot's end. -/
theorem endOfATransmission : Obligations.EndOfATransmission := by
  refine ⟨fun l => ⟨Line.sentBit_none, fun i b => Line.sentBit_char⟩, fun s => ⟨fun n sending past => next_of_rests ?sent,
    fun sent => ⟨exec_collision (Line.readback_recessive sent), next_of_rests (State.collision_same ?low),
      fun run open_ => next_of_rests (State.collision_same (Line.readback_as_sent sent open_ run))⟩,
    fun sent => ⟨exec_collision (Line.readback_dominant sent), next_of_rests (State.collision_same ?high)⟩,
    fun run judged => ⟨fun short => exec_collision ?short, fun long => next_of_rests (State.collision_same ?long)⟩,
    fun p t0 planned timer ended => ?count⟩⟩
  case sent =>
    unfold State.recordTransmissionEnd
    rw [sending]
    exact if_pos past
  case low => rw [Line.readback, sent]; rfl
  case high => rw [Line.readback, sent]; rfl
  case short => exact (Line.readback_ended judged run).trans (if_pos short)
  case long => exact (Line.readback_ended judged run).trans (if_neg (Nat.not_lt.mpr long))
  case count =>
    have next {e : TxEnd} {l : Line} (sent : s.line.txEnd = some e) (counted : s.line.countTransmission = l) :
        exec .ownSlotEnd s = .next { s with line := l } :=
      next_of_rests (counted ▸ State.ownSlotEnd_counts planned timer ended sent)
    refine ⟨fun sent => next sent (Line.countTransmission_clean sent),
      fun sent => next sent (Line.countTransmission_uncounted (.inr (.inl sent))),
      fun sent few => next sent (Line.countTransmission_collision sent few),
      fun sent third active budget => next sent ?_, fun sent third active budget => next sent ?_⟩
    · rw [Line.countTransmission_fault sent third, Line.toSilentFault_timed (l := { s.line with txEnd := none }) budget]
      simp [active]
    · rw [Line.countTransmission_fault sent third, Line.toSilentFault_permanent (l := { s.line with txEnd := none }) budget]
      simp [active]

end Sys2Proof.Machine
end

section
/-! PROOFS. The times of the line state, the slots and the station record (R13 to R19, R22 to R27). -/

namespace Sys2Proof.Machine

/-! ### A boundary counts the line's times -/

theorem Line.countBoundary_txEnd (l : Line) (e : Option TxEnd) :
    Line.countBoundary { l with txEnd := e } = { l.countBoundary with txEnd := e } := by
  unfold Line.countBoundary Line.countHold Line.countListen Line.holdOver
  dsimp only
  repeat' split
  all_goals rfl

/-- The line record of the frame that begins (R9, R10). -/
def Line.begun (age : Nat) (l : Line) : Line :=
  { l with
    frameTimer := some age, pending := none, cycleMarkReq := l.cycleMarkReq && l.pending.isNone
    sending := none, outcomes := .tab fun _ => none }

theorem Line.boundary_eq (l : Line) (age : Nat) : l.boundary age = (l.begun age).countBoundary.countTransmission := rfl

theorem Line.countBoundary_keeps (l : Line) : l.countBoundary.txEnd = l.txEnd ∧
    l.countBoundary.collisionRun = l.collisionRun ∧ l.countBoundary.budget = l.budget := by
  rw [Line.countBoundary_law]
  exact ⟨rfl, rfl, rfl⟩

/-- Without a transmission to count, a boundary does its own part alone. -/
theorem Line.boundary_uncounted (l : Line) (age : Nat) :
    Line.boundary age { l with txEnd := none } = { (l.begun age).countBoundary with txEnd := none } := by
  rw [Line.boundary_eq]
  show (Line.countBoundary { l.begun age with txEnd := none }).countTransmission = _
  rw [Line.countBoundary_txEnd, Line.countTransmission_uncounted (l := { (l.begun age).countBoundary with txEnd := none })
    (.inl rfl)]

/-- A boundary counts the transmission after its own part (log 12). -/
theorem Line.boundary_counts (l : Line) (age : Nat) :
    l.boundary age = Line.countTransmission { Line.boundary age { l with txEnd := none } with txEnd := l.txEnd } := by
  have ended : (l.begun age).countBoundary.txEnd = l.txEnd := (l.begun age).countBoundary_keeps.1
  rw [Line.boundary_uncounted, ← ended]
  rfl

/-- The count of collisions and the retry budget are the transmission's alone (R13). -/
theorem Line.boundary_budget (l : Line) (age : Nat) :
    (Line.boundary age { l with txEnd := none }).collisionRun = l.collisionRun ∧
      (Line.boundary age { l with txEnd := none }).budget = l.budget := by
  rw [Line.boundary_uncounted]
  exact (l.begun age).countBoundary_keeps.2

/-- No transmission but a collision touches the times of the line state. -/
theorem Line.boundary_times {l : Line} (calm : l.txEnd ≠ some .collision) (age : Nat) :
    (l.boundary age).st = (l.begun age).countBoundary.st ∧ (l.boundary age).sfHold = (l.begun age).countBoundary.sfHold ∧
      (l.boundary age).sfKind = (l.begun age).countBoundary.sfKind ∧
      (l.boundary age).listenCount = (l.begun age).countBoundary.listenCount := by
  have ended : (l.begun age).countBoundary.txEnd = l.txEnd := (l.begun age).countBoundary_keeps.1
  rw [Line.boundary_eq]
  cases e : l.txEnd with
  | none => rw [Line.countTransmission_uncounted (.inl (ended.trans e))]; exact ⟨rfl, rfl, rfl, rfl⟩
  | some end_ =>
    cases end_ with
    | clean => rw [Line.countTransmission_clean (ended.trans e)]; exact ⟨rfl, rfl, rfl, rfl⟩
    | collision => exact absurd e calm
    | slip => rw [Line.countTransmission_uncounted (.inr (.inl (ended.trans e)))]; exact ⟨rfl, rfl, rfl, rfl⟩
    | judging => rw [Line.countTransmission_uncounted (.inr (.inr (ended.trans e)))]; exact ⟨rfl, rfl, rfl, rfl⟩

theorem Line.countBoundary_hold {l : Line} (timed : l.sfKind = .timed) (early : l.sfHold < 599) :
    l.countBoundary = { l with sfHold := l.sfHold + 1 } := by
  rw [Line.countBoundary, if_pos timed]
  exact if_pos (by unfold tSFH; omega)

theorem Line.countBoundary_holdOver {l : Line} (timed : l.sfKind = .timed) (last : l.sfHold = 599) :
    l.countBoundary = l.holdOver := by
  rw [Line.countBoundary, if_pos timed]
  exact if_neg (by unfold tSFH; omega)

theorem Line.countBoundary_listen {l : Line} (untimed : l.sfKind ≠ .timed) (listens : l.st = .listen) :
    l.countBoundary = l.countListen := by
  rw [Line.countBoundary, if_neg untimed, if_pos listens]

theorem Line.countBoundary_stands {l : Line} (untimed : l.sfKind ≠ .timed) (other : l.st ≠ .listen) :
    l.countBoundary = l := by
  rw [Line.countBoundary, if_neg untimed, if_neg other]

theorem Line.countListen_early {l : Line} (early : l.listenCount < 2) :
    l.countListen = { l with listenCount := l.listenCount + 1 } := if_pos (by unfold listenPeriod; omega)

theorem Line.countListen_last {l : Line} (last : l.listenCount = 2) :
    l.countListen = { l with listenCount := 3, st := .active } := if_neg (by unfold listenPeriod; omega)

theorem Line.holdOver_listens {l : Line} (free : l.st ≠ .stuck) :
    l.holdOver = { l with sfHold := 600, sfKind := .none, st := .listen, listenCount := 0 } := by
  rw [Line.holdOver, if_neg free, if_neg free]
  rfl

theorem Line.holdOver_stuck {l : Line} (stuck : l.st = .stuck) :
    l.holdOver = { l with sfHold := 600, sfKind := .none } := by
  rw [Line.holdOver, if_pos stuck, if_pos stuck, ← stuck]
  rfl

/-- The end of STUCK (R14, R19). -/
theorem State.stuckEnd_due {s : State} (stuck : s.line.st = .stuck) (ended : s.line.run = none)
    (long : 6250 ≤ s.line.recessive) : s.stuckEnd = { s with line := { s.line with
      st := if s.line.sfKind = .none then .listen else .silentFault
      listenCount := if s.line.sfKind = .none then 0 else s.line.listenCount
      outcomes := .tab fun k =>
        if s.ownSlot k = false ∧ s.line.reached (250 + 360 * k.val) = true then some .bad
        else s.line.outcomes.nth k } } := by
  unfold State.stuckEnd
  dsimp only
  rw [if_pos ⟨stuck, ended, long⟩]
  simp only [Bool.and_eq_true, Bool.not_eq_true']
  split <;> rfl

/-- Settles O15: the rows alone, then the boundary by its own part and the count of the transmission. -/
theorem lineStateTimesEnd : Obligations.LineStateTimesEnd := by
  refine ⟨fun s => ⟨fun timed last free => next_of_rests ?free, fun timed last stuck => next_of_rests ?stuck,
    fun listens last => next_of_rests ?listen, fun stuck ended long => next_of_rests (State.stuckEnd_due stuck ended long)⟩,
    fun l u age taken => ?counts, fun l age calm => ?states⟩
  case free =>
    rw [State.silentFaultHoldEnd, if_pos ⟨timed, by rw [last]; rfl⟩, Line.holdOver_listens free]
  case stuck =>
    rw [State.silentFaultHoldEnd, if_pos ⟨timed, by rw [last]; rfl⟩, Line.holdOver_stuck stuck]
  case listen =>
    rw [State.listenEnd, if_pos ⟨listens, by rw [last]; rfl⟩, Line.countListen_last last]
  case counts =>
    subst taken
    obtain ⟨count, budget⟩ := l.boundary_budget age
    rw [l.boundary_counts age]
    rw [l.boundary_uncounted age] at count budget ⊢
    generalize (l.begun age).countBoundary = v at count budget ⊢
    refine ⟨fun ended => ?_, fun ended => ?_, fun ended few => ?_, fun ended third left_ => ?_, fun ended third spent => ?_⟩
    · exact Line.countTransmission_uncounted (l := { v with txEnd := l.txEnd }) ended
    · exact Line.countTransmission_clean (l := { v with txEnd := l.txEnd }) ended
    · rw [Line.countTransmission_collision (l := { v with txEnd := l.txEnd }) ended (count ▸ few), ← count]
    · rw [Line.countTransmission_fault (l := { v with txEnd := l.txEnd }) ended (count ▸ third),
        Line.toSilentFault_timed (budget ▸ left_)]
    · rw [Line.countTransmission_fault (l := { v with txEnd := l.txEnd }) ended (count ▸ third),
        Line.toSilentFault_permanent (budget.trans spent)]
  case states =>
    obtain ⟨st, hold, kind, listen⟩ := Line.boundary_times calm age
    rw [st, hold, kind, listen]
    refine ⟨fun timed early => ?_, fun timed last free => ?_, fun untimed listens early => ?_,
      fun untimed listens last => ?_, fun untimed other => ?_⟩
    · rw [Line.countBoundary_hold (l := l.begun age) timed early]
      exact ⟨rfl, timed, rfl⟩
    · rw [Line.countBoundary_holdOver (l := l.begun age) timed last, Line.holdOver_listens (l := l.begun age) free]
      exact ⟨rfl, rfl, rfl, rfl⟩
    · rw [Line.countBoundary_listen (l := l.begun age) untimed listens, Line.countListen_early (l := l.begun age) early]
      exact ⟨listens, rfl⟩
    · rw [Line.countBoundary_listen (l := l.begun age) untimed listens, Line.countListen_last (l := l.begun age) last]
      exact ⟨rfl, rfl⟩
    · rw [Line.countBoundary_stands (l := l.begun age) untimed other]
      exact ⟨rfl, rfl, rfl⟩

/-! ### Slots -/

theorem Line.slot_reached {l : Line} {t0 t : Nat} (timer : l.frameTimer = some t0) (reached : t ≤ t0) : l.reached t = true :=
  (l.reached_iff t).mpr ⟨t0, timer, reached⟩

/-- Settles O16. -/
theorem slotsAreJudged : Obligations.SlotsAreJudged := by
  intro s k t0 receives other open_ timer
  have slotOpen : s.slotOpen k = true := (s.slotOpen_iff k).mpr ⟨receives, other, open_⟩
  refine ⟨fun reached => next_of_rests (if_pos ?_), fun reached pos levels further => next_of_rests (if_pos ?_)⟩
  · rw [slotOpen]; exact Line.slot_reached timer reached
  · rw [slotOpen]; exact Line.slot_reached timer reached

theorem goodRecord_iff (k : StationId) (l : List Byte) (r : Record) :
    goodRecord k l = some r ↔ Record.decode l = some r ∧ crcMatches l = true ∧ r.station.toFin = k := by
  unfold goodRecord
  cases decoded : Record.decode l with
  | none => exact iff_of_false nofun fun h => nomatch h.1
  | some q =>
    simp only [Option.ite_none_right_eq_some, Bool.and_eq_true, beq_iff_eq, Option.some.injEq]
    exact ⟨fun ⟨⟨crc, station⟩, same⟩ => ⟨same, crc, same ▸ station⟩, fun ⟨same, crc, station⟩ => ⟨⟨crc, same ▸ station⟩, same⟩⟩

/-- A decoded record has the length that its counts give (R14). -/
theorem Record.decode_length {l : List Byte} {r : Record} (decoded : Record.decode l = some r) :
    ∃ c, l[4]? = some c ∧ recordLength c = some l.length := by
  unfold Record.decode at decoded
  split at decoded
  next c0 f0 f1 c3 c4 _ _ _ _ _ _ _ _ _ _ =>
    split at decoded
    next given => exact ⟨c4, rfl, given⟩
    next => cases decoded
  next => cases decoded

theorem recordLength_some {c : Byte} {n : Nat} (given : recordLength c = some n) :
    (c.extractLsb' 4 2).toNat ≠ 3 ∧ n = 16 + (c.extractLsb' 4 2).toNat + 2 * (c.extractLsb' 6 2).toNat := by
  unfold recordLength at given
  dsimp only at given
  split at given
  next => cases given
  next counts => exact ⟨counts, (Option.some.inj given).symm⟩

theorem goodRecord_length {k : StationId} {l : List Byte} {r : Record} (good : goodRecord k l = some r) :
    ∃ c, l[4]? = some c ∧ (c.extractLsb' 4 2).toNat ≠ 3 ∧
      l.length = 16 + (c.extractLsb' 4 2).toNat + 2 * (c.extractLsb' 6 2).toNat := by
  obtain ⟨decoded, _⟩ := (goodRecord_iff k l r).mp good
  obtain ⟨c, fifth, given⟩ := Record.decode_length decoded
  exact ⟨c, fifth, recordLength_some given⟩

/-- What is not good for any record is no good record. -/
theorem goodRecord_none {k : StationId} {l : List Byte} (bad : ∀ r, goodRecord k l ≠ some r) : goodRecord k l = none :=
  Option.eq_none_iff_forall_ne_some.mpr bad

/-- The gaps between characters, pair by pair (R14). -/
theorem gapsOk_iff (l : List RxEdge) :
    gapsOk l = true ↔ ∀ l1 a b l2, l = l1 ++ a :: b :: l2 → b.pos ≤ a.pos + 10 + 20 := by
  induction l with
  | nil => exact iff_of_true rfl fun l1 a b l2 same => by simp at same
  | cons x l ih =>
    cases l with
    | nil =>
      refine iff_of_true rfl fun l1 a b l2 same => ?_
      have lengths := congrArg List.length same
      simp only [List.length_append, List.length_cons, List.length_nil] at lengths
      omega
    | cons y l =>
      rw [gapsOk, Bool.and_eq_true, decide_eq_true_eq, ih]
      constructor
      · rintro ⟨near, rest⟩ l1 a b l2 same
        cases l1 with
        | nil => cases same; exact near
        | cons z l1 => exact rest l1 a b l2 (List.cons.inj same).2
      · intro pairs
        exact ⟨pairs [] x y l rfl, fun l1 a b l2 same => pairs (x :: l1) a b l2 (by rw [same]; rfl)⟩

theorem wellFramed_iff (l : List RxEdge) : wellFramed l = true ↔
    (∀ e ∈ l, stopRecessive e = true ∧ e.pos + 10 < 360) ∧
    ∀ l1 a b l2, l = l1 ++ a :: b :: l2 → b.pos ≤ a.pos + 10 + 20 := by
  rw [wellFramed, Bool.and_eq_true, Bool.and_eq_true, gapsOk_iff, endsInSlot, List.all_eq_true, List.all_eq_true]
  refine and_right_comm.trans (and_congr_left fun _ => ?_)
  simp only [forall_and, decide_eq_true_eq]
  exact Iff.rfl

/-- The outcome of a slot with an accepted start edge (R14, R15). -/
theorem slotOutcome_heard {k : StationId} {edges : List RxEdge} {e : RxEdge} (first : (edges.filter accepted).head? = some e)
    (early : e.pos ≤ 120) : slotOutcome k edges =
      if wellFramed (edges.filter accepted) = true then
        match goodRecord k ((edges.filter accepted).map rxValue) with
        | some r => .good r
        | none => .bad
      else .bad := by
  unfold slotOutcome
  dsimp only
  generalize edges.filter accepted = l at first ⊢
  cases l with
  | nil => cases first
  | cons a l =>
    cases first
    exact if_neg (Nat.not_lt.mpr early)

theorem slotOutcome_silent {k : StationId} {edges : List RxEdge}
    (late : ∀ e ∈ (edges.filter accepted).head?, 120 < e.pos) : slotOutcome k edges = .silent := by
  unfold slotOutcome
  dsimp only
  generalize edges.filter accepted = l at late ⊢
  cases l with
  | nil => rfl
  | cons a l => exact if_pos (late a rfl)

/-- A slot is GOOD by a well-framed good record alone (R15). -/
theorem slotOutcome_good {k : StationId} {edges : List RxEdge} {r : Record} (good : slotOutcome k edges = .good r) :
    wellFramed (edges.filter accepted) = true ∧ goodRecord k ((edges.filter accepted).map rxValue) = some r := by
  by_cases late : ∀ e ∈ (edges.filter accepted).head?, 120 < e.pos
  · rw [slotOutcome_silent late] at good; cases good
  · simp only [Option.mem_def, Classical.not_forall, Nat.not_lt] at late
    obtain ⟨e, first, early⟩ := late
    rw [slotOutcome_heard first early] at good
    split at good
    next framed =>
      split at good
      next q same => cases good; exact ⟨framed, same⟩
      next => cases good
    next => cases good

/-- Settles O17. -/
theorem goodSlotOutcome : Obligations.GoodSlotOutcome := by
  refine ⟨fun k r edges claims reports chars => ⟨fun early station framed => ?good, fun wrong q => ?wrong⟩,
    fun k edges => ⟨slotOutcome_silent, fun e first early => ⟨fun bad => ?bad, fun r framed good => ?heard⟩⟩,
    fun k chars => ⟨fun crc => ?crc, fun short => ?short, fun c fifth three => ?three, fun c fifth other => ?other⟩,
    fun e => ⟨rfl, rfl, fun i less => ?bits⟩, wellFramed_iff⟩
  case good =>
    have good : goodRecord k ((edges.filter accepted).map rxValue) = some r := by
      rw [chars, goodRecord_iff]
      exact ⟨Record.decode_encode r claims reports, crcMatches_withCrc _, station⟩
    cases first : (edges.filter accepted).head? with
    | none =>
      rw [List.head?_eq_none_iff.mp first] at chars
      have lengths := congrArg List.length chars
      rw [Record.encode_length, List.map_nil, List.length_nil] at lengths
      omega
    | some e => rw [slotOutcome_heard first (early e first), if_pos framed, good]
  case wrong =>
    intro good
    obtain ⟨framed, record⟩ := slotOutcome_good good
    rw [chars] at record
    obtain ⟨decoded, _, station⟩ := (goodRecord_iff _ _ _).mp record
    rw [Record.decode_encode r claims reports] at decoded
    cases decoded
    rcases wrong with other | unframed
    · exact other station
    · rw [unframed] at framed; cases framed
  case bad =>
    rw [slotOutcome_heard first early]
    rcases bad with unframed | none_
    · rw [unframed]; rfl
    · rw [none_]; exact ite_self _
  case heard => rw [slotOutcome_heard first early, if_pos framed, good]
  case crc =>
    refine goodRecord_none fun r good => ?_
    obtain ⟨_, matches_, _⟩ := (goodRecord_iff _ _ _).mp good
    rw [crc] at matches_; cases matches_
  case short =>
    refine goodRecord_none fun r good => ?_
    obtain ⟨_, _, _, length⟩ := goodRecord_length good
    omega
  case three =>
    refine goodRecord_none fun r good => ?_
    obtain ⟨c', same, counts, _⟩ := goodRecord_length good
    rw [fifth] at same
    cases same
    exact counts (by rw [three]; rfl)
  case other =>
    refine goodRecord_none fun r good => ?_
    obtain ⟨c', same, _, length⟩ := goodRecord_length good
    rw [fifth] at same
    cases same
    exact other length
  case bits =>
    rw [rxValue, BitVec.getLsbD_extractLsb', decide_eq_true less, Bool.true_and, Nat.add_comm]

/-! ### The station record -/

/-- Insertion adds its entry and no other. -/
theorem insertCleared_perm (e : ClaimEntry) (l : List ClaimEntry) : (insertCleared e l).Perm (e :: l) := by
  induction l with
  | nil => exact .refl _
  | cons f l ih =>
    unfold insertCleared
    split
    · exact .refl _
    · exact (ih.cons f).trans (.swap e f l)

/-- The most recently cleared first (R25). -/
def newestFirst (a b : ClaimEntry) : Prop := b.clearedOrder.getD 0 ≤ a.clearedOrder.getD 0

theorem insertCleared_sorted {e : ClaimEntry} {l : List ClaimEntry} (sorted : l.Pairwise newestFirst) :
    (insertCleared e l).Pairwise newestFirst := by
  induction l with
  | nil => exact List.pairwise_singleton _ e
  | cons f l ih =>
    obtain ⟨head, tail⟩ := List.pairwise_cons.mp sorted
    unfold insertCleared
    split
    next newer =>
      refine List.pairwise_cons.mpr ⟨fun a mem => ?_, sorted⟩
      rcases List.mem_cons.mp mem with rfl | mem
      · exact newer
      · exact Nat.le_trans (head a mem) newer
    next older =>
      refine List.pairwise_cons.mpr ⟨fun a mem => ?_, ih tail⟩
      rcases List.mem_cons.mp ((insertCleared_perm e l).mem_iff.mp mem) with rfl | mem
      · exact Nat.le_of_not_le older
      · exact head a mem

/-- Entries of one place keep their table order (log 20). -/
theorem insertCleared_place (e : ClaimEntry) (l : List ClaimEntry) (n : Nat) :
    ((insertCleared e l).filter fun a => a.clearedOrder.getD 0 == n) =
      (e :: l).filter fun a => a.clearedOrder.getD 0 == n := by
  induction l with
  | nil => rfl
  | cons f l ih =>
    unfold insertCleared
    split
    next => rfl
    next older =>
      rw [List.filter_cons, ih]
      simp only [List.filter_cons, beq_iff_eq]
      split <;> split
      · omega
      all_goals rfl

/-- The CLEARED entries of other origins, as the service reports take them (R25). -/
def clearedFirst (own : StationId) (t : List ClaimEntry) : List ClaimEntry :=
  ((t.filter fun e => !(e.origin == own)).filter fun e => e.state == .cleared).foldr insertCleared []

theorem foldr_insertCleared (l : List ClaimEntry) : (l.foldr insertCleared []).Perm l ∧
    (l.foldr insertCleared []).Pairwise newestFirst ∧ ∀ n,
      ((l.foldr insertCleared []).filter fun a => a.clearedOrder.getD 0 == n) =
        l.filter fun a => a.clearedOrder.getD 0 == n := by
  induction l with
  | nil => exact ⟨.refl _, .nil, fun _ => rfl⟩
  | cons e l ih =>
    obtain ⟨perm, sorted, place⟩ := ih
    refine ⟨(insertCleared_perm e _).trans (perm.cons e), insertCleared_sorted sorted, fun n => ?_⟩
    rw [List.foldr_cons, insertCleared_place, List.filter_cons, List.filter_cons, place n]

theorem cleared_others (own : StationId) (t : List ClaimEntry) :
    ((t.filter fun e => !(e.origin == own)).filter fun e => e.state == .cleared) =
      t.filter fun e => !(e.origin == own) && e.state == .cleared := by
  rw [List.filter_filter]
  exact List.filter_congr fun e _ => Bool.and_comm _ _

theorem reportList_eq (own : StationId) (t : List ClaimEntry) : reportList own t =
    (((t.filter fun e => !(e.origin == own) && e.state == .serving) ++ clearedFirst own t).take 3).map ClaimEntry.report := by
  unfold reportList
  dsimp only
  rw [List.filter_filter]
  simp only [Bool.and_comm]
  rfl

/-- Settles O19: the record by `decode_encode`, the service reports by the insertion of `foldr_insertCleared`. -/
theorem recordDecodesToItself : Obligations.RecordDecodesToItself := by
  refine ⟨fun r claims reports => ⟨Record.decode_encode r claims reports, crcMatches_withCrc _, r.encode_length⟩,
    fun s => ⟨fun planless => by rw [State.snapshotNow, planless], fun p planned => by rw [State.snapshotNow, planned]⟩,
    fun s p => ⟨?staged, clearedFirst p.station s.claims.table, ?perm, ?sorted, fun n => ?place, ?reports⟩⟩
  case staged =>
    have step : BitVec.ofNat 2 s.seq.step.code = match s.seq.step with
        | .isolated => 0
        | .seeking => 1
        | .inStep => 2 := by
      cases s.seq.step <;> rfl
    unfold State.staged
    rw [step]
    cases s.seq.st with
    | idle => rfl
    | dwell t => rfl
    | change c => obtain ⟨_ | t, _⟩ := c <;> rfl
  case perm => rw [← cleared_others]; exact (foldr_insertCleared _).1
  case sorted => exact (foldr_insertCleared _).2.1
  case place =>
    rw [clearedFirst, (foldr_insertCleared _).2.2, cleared_others, List.filter_filter]
    exact List.filter_congr fun e _ => Bool.and_comm _ _
  case reports => exact reportList_eq p.station s.claims.table

end Sys2Proof.Machine
end

section
/-! PROOFS. The peer table (R28 to R38) and the position of the cycle unit (R43 to R47). -/

namespace Sys2Proof.Machine

/-! ### One entry (R29 to R36) -/

/-- A bad or silent slot is a miss, but for the count of bad records. -/
theorem Peer.evaluate_missed {o : Outcome} (missed : o = .bad ∨ o = .silent) (f : Half) (e : Peer) :
    e.evaluate f o = { e.missed with badCount := (e.evaluate f o).badCount } := by
  rcases missed with rfl | rfl
  · unfold Peer.evaluate Peer.countBad
    dsimp only
    split <;> rfl
  · rfl

theorem Peer.missed_absent {e : Peer} (absent : e.presence = .absent) : e.missed = { e with fresh := false } := by
  unfold Peer.missed; rw [absent]

/-- HEARD returns to ABSENT at once, and LOST at the fiftieth miss (R31, R34). -/
theorem Peer.missed_discarded {e : Peer} (gone : e.presence = .heard ∨ e.presence = .lost ∧ 49 ≤ e.miss) :
    e.missed = e.toAbsent := by
  unfold Peer.missed
  rcases gone with heard | ⟨lost, last⟩
  · rw [heard]
  · rw [lost]
    exact if_neg (by unfold missAbsent; omega)

theorem Peer.missed_counted {e : Peer} (here : e.presence = .present ∨ e.presence = .foreign ∨ e.presence = .unfit)
    (few : e.miss < 9) : e.missed = { e with miss := e.miss + 1, fresh := false } := by
  have few : e.miss + 1 < missLost := by unfold missLost; omega
  unfold Peer.missed
  rcases here with p | p | p <;> rw [p] <;> exact if_pos few

/-- The tenth miss (R33). -/
theorem Peer.missed_lost {e : Peer} (here : e.presence = .present ∨ e.presence = .foreign ∨ e.presence = .unfit)
    (tenth_ : 9 ≤ e.miss) : e.missed = e.toLost := by
  have last : ¬ e.miss + 1 < missLost := by unfold missLost; omega
  unfold Peer.missed
  rcases here with p | p | p <;> rw [p] <;> exact if_neg last

theorem Peer.missed_while_lost {e : Peer} (lost : e.presence = .lost) (few : e.miss < 49) :
    e.missed = { e with miss := e.miss + 1, fresh := false } := by
  unfold Peer.missed
  rw [lost]
  exact if_pos (by unfold missAbsent; omega)

theorem Peer.good_admitted {e : Peer} (away : e.presence = .absent ∨ e.presence = .lost) (f : Half) (r : Record) :
    e.good f r = e.toHeard r := by
  unfold Peer.good
  rcases away with p | p <;> rw [p]

theorem Peer.good_heard {e : Peer} (heard : e.presence = .heard) (few : e.run < 2) (f : Half) (r : Record) :
    e.good f r = { e with run := e.run + 1, record := some r, fresh := true } := by
  unfold Peer.good
  rw [heard]
  exact if_pos (by unfold admitRun; omega)

/-- The entries that a good record classifies (R32). -/
theorem Peer.classifiable_iff (e : Peer) : e.classifiable = true ↔
    e.presence = .heard ∧ 2 ≤ e.run ∨ e.presence = .present ∨ e.presence = .foreign ∨ e.presence = .unfit := by
  unfold Peer.classifiable
  cases e.presence <;> simp [admitRun]

theorem Peer.good_classified {e : Peer} (due : e.classifiable = true) (f : Half) (r : Record) :
    e.good f r = e.classified f r := by
  unfold Peer.good
  rcases e.classifiable_iff.mp due with ⟨heard, third⟩ | p | p | p
  · rw [heard]
    exact if_neg (by unfold admitRun; omega)
  all_goals rw [p]

theorem Peer.evaluate_self {e : Peer} (self : e.presence = .self) (f : Half) (o : Outcome) : e.evaluate f o = e := by
  unfold Peer.evaluate
  cases o with
  | good r => dsimp only; rw [Peer.good, self]
  | bad => dsimp only; rw [Peer.missed_of_self e self, Peer.countBad, if_pos self]
  | silent => exact Peer.missed_of_self e self
  | own => rfl

theorem State.presentRecord_iff (s : State) (k : StationId) (r : Record) : s.presentRecord k = some r ↔
    (s.peers.nth k).presence = .present ∧ (s.peers.nth k).record = some r := by
  unfold State.presentRecord
  dsimp only
  cases (s.peers.nth k).presence <;> simp

theorem State.peerLost_due {s : State} {k : StationId} (here : (s.peers.nth k).presence = .present ∨
    (s.peers.nth k).presence = .foreign ∨ (s.peers.nth k).presence = .unfit) (tenth_ : (s.peers.nth k).miss = 9) :
    s.peerLost k = s.updPeer k Peer.toLost := by
  have last : missLost ≤ (s.peers.nth k).miss + 1 := by unfold missLost; omega
  unfold State.peerLost
  dsimp only
  rcases here with p | p | p <;> rw [p] <;> exact if_pos last

theorem State.peerAbsent_due {s : State} {k : StationId} (lost : (s.peers.nth k).presence = .lost)
    (last : (s.peers.nth k).miss = 49) : s.peerAbsent k = s.updPeer k Peer.toAbsent := by
  unfold State.peerAbsent
  dsimp only
  rw [lost]
  exact if_pos (by unfold missAbsent; omega)

theorem State.peerClassification_due {s : State} {k : StationId} {chars : List Byte} {r : Record}
    (good : goodRecord k chars = some r) (due : (s.peers.nth k).classifiable = true) :
    s.peerClassification k chars = s.updPeer k (Peer.classified s.fingerprint r) := by
  unfold State.peerClassification
  rw [good]
  exact if_pos due

/-- Settles O20: one entry by its presence and its slot's outcome. -/
theorem peerEntryTransitions : Obligations.PeerEntryTransitions := by
  refine ⟨fun s k chars r => ⟨fun good due => ?classify, fun here tenth_ => ?lost, fun lost last => ?absent⟩,
    fun f e r => ⟨fun away => Peer.good_admitted away f r, fun heard few => Peer.good_heard heard few f r,
      fun due => Peer.good_classified (e.classifiable_iff.mpr due) f r⟩,
    fun f e o missed => ?missed, fun f e o fixed => ?fixed, Record.inRange_iff, State.presentRecord_iff⟩
  case classify =>
    exact next_of_rests (State.peerClassification_due good ((Peer.classifiable_iff _).mpr due))
  case lost =>
    refine next_of_rests ((State.peerLost_due here tenth_).trans ?_)
    rw [State.updPeer, Table.upd, Peer.toLost, tenth_]
  case absent => exact next_of_rests (State.peerAbsent_due lost last)
  case missed =>
    have next {m : Peer} (taken : e.missed = m) : e.evaluate f o = { m with badCount := (e.evaluate f o).badCount } :=
      taken ▸ Peer.evaluate_missed missed f e
    exact ⟨fun absent => next (Peer.missed_absent absent), fun gone => next (Peer.missed_discarded gone),
      fun here => ⟨fun few => next (Peer.missed_counted here few), fun last => next (Peer.missed_lost here last)⟩,
      fun lost few => next (Peer.missed_while_lost lost few)⟩
  case fixed =>
    rcases fixed with self | rfl
    · exact Peer.evaluate_self self f o
    · rfl

/-! ### The bad-record count (R36, R38) -/

theorem State.updPeer_nth (s : State) (k j : StationId) (f : Peer → Peer) :
    (s.updPeer k f).peers.nth j = if k = j then f (s.peers.nth k) else s.peers.nth j := Table.nth_upd _ _ _ _

theorem State.updPeer_badCount {s : State} {f : Peer → Peer} (keeps : ∀ e, (f e).badCount = e.badCount) (k j : StationId) :
    ((s.updPeer k f).peers.nth j).badCount = (s.peers.nth j).badCount := by
  rw [State.updPeer_nth]
  split
  next same => rw [keeps, same]
  next => rfl

/-- Settles O21. -/
theorem badRecordCount : Obligations.BadRecordCount := by
  refine ⟨fun f e other => ?bad, fun f e self => by rw [Peer.evaluate_self self], fun f e o other => ?stands,
    fun s outcome k => Table.nth_tab _ k, fun s k chars j => ⟨⟨_, rfl, ?classify⟩, ⟨_, rfl, ?lost⟩, ⟨_, rfl, ?absent⟩⟩,
    fun k => by rw [State.reset_peers_nth]; rfl, fun s => ?report⟩
  case bad =>
    show e.missed.countBad.badCount = _
    rw [Peer.countBad, if_neg (Peer.missed_not_self e other), Peer.missed_badCount]
  case stands =>
    cases o with
    | good r => exact Peer.good_badCount f r e
    | bad => exact absurd rfl other
    | silent => exact Peer.missed_badCount e
    | own => rfl
  case classify =>
    unfold State.peerClassification
    split
    · rfl
    · split
      · exact State.updPeer_badCount (by intro _; rfl) k j
      · rfl
  case lost =>
    unfold State.peerLost
    dsimp only
    repeat' split
    all_goals first | rfl | exact State.updPeer_badCount (by intro _; rfl) k j
  case absent =>
    unfold State.peerAbsent
    dsimp only
    repeat' split
    all_goals first | rfl | exact State.updPeer_badCount (by intro _; rfl) k j
  case report =>
    unfold State.peersBody
    congr 1
    funext k
    dsimp only
    cases (s.peers.nth k).presence <;> rfl

/-! ### The position (R43 to R47) -/

theorem Plan.patternOf_zero (p : Plan) : p.patternOf 0 = none := rfl

theorem Plan.cOf_zero (p : Plan) : p.cOf 0 = 0 := rfl

theorem State.localPosition_uncoordinated {s : State} (active : s.cycle.active = 0) : s.localPosition = 0 := by
  unfold State.localPosition
  rw [active]
  split
  · rfl
  · rw [Plan.patternOf_zero]

theorem State.coordinatedOp_uncoordinated {s : State} (active : s.cycle.active = 0) : s.coordinatedOp = false := by
  rw [State.coordinatedOp, active]
  exact Bool.and_false _

theorem Cycle.positionStep_uncoordinated {c : Cycle} (active : c.active = 0) (cLen : Nat) (heard : Bool) :
    c.positionStep cLen heard = c := if_pos active

theorem Cycle.bigJump_iff (c : Cycle) (cLen : Nat) (heard : Bool) : c.bigJump cLen heard = true ↔
    heard = true ∧ c.set = true ∧ c.active ≠ 0 ∧ 2 < cLen - 1 - c.position ∧ cLen - 1 - c.position ≤ cLen / 2 := by
  simp only [Cycle.bigJump, Bool.and_eq_true, Bool.not_eq_true', beq_eq_false_iff_ne, decide_eq_true_eq, and_assoc]
  exact Iff.rfl

theorem State.requestMark_iff (s : State) (p : Plan) : s.requestMark p =
    if s.cycle.set = true ∧ s.cycle.position + 1 = p.cOf s.cycle.active
      then { s with line := { s.line with cycleMarkReq := true } } else s := by
  simp only [State.requestMark, Bool.and_eq_true, beq_iff_eq]

/-- A SET clock with no mark heard advances (R43). -/
theorem Cycle.positionStep_advance {c : Cycle} {cLen : Nat} (active : c.active ≠ 0) (set : c.set = true) :
    c.positionStep cLen false = c.advance cLen := by
  rw [Cycle.positionStep, if_neg active, if_pos set]
  rfl

/-- A SET clock that hears a mark (R45). -/
theorem Cycle.positionStep_heard {c : Cycle} {cLen : Nat} (active : c.active ≠ 0) (set : c.set = true) :
    c.positionStep cLen true = c.hearMark cLen := by
  rw [Cycle.positionStep, if_neg active, if_pos set]
  rfl

theorem Cycle.advance_position {c : Cycle} {cLen : Nat} (inside : c.position < cLen) :
    (c.advance cLen).position = (c.position + 1) % cLen := by
  unfold Cycle.advance
  dsimp only
  split
  next before => rw [Nat.mod_eq_of_lt before]
  next last => rw [show c.position + 1 = cLen by omega, Nat.mod_self]

/-- An UNSET clock waits for a mark or for C (R46). -/
theorem Cycle.positionStep_unset {c : Cycle} {cLen : Nat} (active : c.active ≠ 0) (unset : c.set = false) :
    c.positionStep cLen true = c.setClock ∧
    (c.unsetWait + 1 < cLen → c.positionStep cLen false = { c with unsetWait := c.unsetWait + 1 }) ∧
    (cLen ≤ c.unsetWait + 1 → c.positionStep cLen false = c.setClock) := by
  have open_ : ¬ c.set = true := by rw [unset]; nofun
  refine ⟨?_, fun early => ?_, fun late => ?_⟩ <;> rw [Cycle.positionStep, if_neg active, if_neg open_]
  · rfl
  · exact if_pos early
  · exact if_neg (Nat.not_lt.mpr late)

/-- Settles O23: pattern 0, and the position part by whether the clock is SET and a mark is heard. -/
theorem positionAtABoundary : Obligations.PositionAtABoundary := by
  refine ⟨fun c cLen heard active => ⟨Cycle.positionStep_uncoordinated active cLen heard, ?jump⟩,
    fun s p active => ⟨State.localPosition_uncoordinated active, State.coordinatedOp_uncoordinated active,
      fun t => State.eligible_always (.inl (State.coordinatedOp_uncoordinated active)), ?point, ?mark⟩,
    fun c cLen active nonempty inside => ⟨fun set => ⟨?advance, fun near => ?near, fun far => ?far⟩,
      Cycle.positionStep_unset active⟩⟩
  case jump =>
    rw [← Bool.not_eq_true, Cycle.bigJump_iff]
    exact fun h => h.2.2.1 active
  case point =>
    unfold State.cyclePoint
    rw [active, Plan.patternOf_zero]
    exact ite_self _
  case mark =>
    rw [State.requestMark_iff, active, Plan.cOf_zero]
    exact if_neg fun h => Nat.succ_ne_zero _ h.2
  case advance => rw [Cycle.positionStep_advance active set, Cycle.advance_position inside]
  case near =>
    rw [Cycle.positionStep_heard active set, Cycle.hearMark]
    dsimp only
    rw [if_pos (show leadOf cLen c.position ≤ cLen / 2 from near)]
    exact ⟨rfl, rfl⟩
  case far =>
    rw [Cycle.positionStep_heard active set, Cycle.hearMark]
    dsimp only
    rw [if_neg (show ¬ leadOf cLen c.position ≤ cLen / 2 from Nat.not_le.mpr far)]
    exact ⟨if_pos (by omega), rfl⟩

end Sys2Proof.Machine
end

section
/-! PROOFS. The cycle unit at a boundary: its steps, its notices and what the sequencer takes of them (R42 to R55, R105, R106). -/

namespace Sys2Proof.Machine

/-! ### The sequencer takes the notices (R88, R89, R105, R106) -/

theorem State.mainGreen_iff (s : State) : s.mainGreen = true ↔ ∃ m, s.mainStage = some m ∧
    ∀ g, BitSet.has (s.stageGroups m) g = true → (s.groups.nth g).state = .green := by
  unfold State.mainGreen State.stageAll
  cases s.mainStage with
  | none => simp
  | some m => simp [allFin_iff, Decidable.imp_iff_not_or]

theorem State.atMain_iff (s : State) : s.atMain = true ↔
    (∃ m, s.mainStage = some m ∧ s.seq.st = .dwell m) ∨ ∃ c, s.seq.st = .change c := by
  unfold State.atMain
  cases s.seq.st with
  | idle => simp
  | dwell t => simp
  | change c => simp

theorem State.takeNotices_release (s : State) (n : Notices) : (s.takeNotices n).seq.release =
    if s.seq.st ≠ .idle ∧ n.point = some .release then true
    else if n.patternChanged.isSome = true ∨ n.clockSet = true then false
    else s.seq.release := by
  unfold State.takeNotices
  simp only [Bool.and_eq_true, Bool.or_eq_true, Bool.not_eq_true', beq_eq_false_iff_ne, beq_iff_eq, ne_eq]

theorem ite_true_eq_or (b c : Bool) : (if b = true then true else c) = (b || c) := by
  cases b <;> rfl

theorem State.takeNotices_forceOff (s : State) (n : Notices) : (s.takeNotices n).seq.forceOff =
    ((match n.point, s.seq.st with
      | some (.forceOff x), .dwell t => t == x
      | some (.forceOff x), .change c => c.toStage == x
      | _, _ => false) ||
    (s.seq.forceOff && !n.patternChanged.isSome && !n.clockSet)) := by
  have stands : (if (n.patternChanged.isSome || n.clockSet) = true then false else s.seq.forceOff) =
      (s.seq.forceOff && !n.patternChanged.isSome && !n.clockSet) := by
    cases n.patternChanged.isSome <;> cases n.clockSet <;> cases s.seq.forceOff <;> rfl
  unfold State.takeNotices SeqState.workingToward
  dsimp only
  rw [stands]
  cases n.point with
  | none => rfl
  | some point =>
    cases point with
    | zero => rfl
    | release => rfl
    | forceOff x =>
      cases s.seq.st with
      | idle => rfl
      | dwell t => exact ite_true_eq_or _ _
      | change c => exact ite_true_eq_or _ _

theorem State.takeNotices_step (s : State) (n : Notices) : (s.takeNotices n).seq.step =
    if n.point = some .zero ∧ s.cycle.active ≠ 0 then
      if s.mainGreen = true ∧ s.atMain = true ∧ n.disturbed = false ∧ n.clockSet = false
      then .inStep else .seeking
    else if (n.clockUnset = true ∨ n.disturbed = true) ∧ s.cycle.active ≠ 0 then .seeking
    else match n.patternChanged with
      | none => s.seq.step
      | some old => if s.cycle.active = 0 then .isolated else if old = 0 then .seeking else s.seq.step := by
  unfold State.takeNotices stepAfterNotices
  simp only [Bool.and_eq_true, Bool.or_eq_true, Bool.not_eq_true', beq_eq_false_iff_ne, beq_iff_eq, ne_eq, and_assoc] <;> rfl

theorem State.takeNotices_eq {s : State} {n : Notices} {release forceOff : Bool} {step : StepState}
    (r : (s.takeNotices n).seq.release = release) (f : (s.takeNotices n).seq.forceOff = forceOff)
    (st : (s.takeNotices n).seq.step = step) :
    s.takeNotices n = { s with seq := { s.seq with release := release, forceOff := forceOff, step := step } } := by
  subst r f st
  rfl

/-! ### The steps of a boundary (R51 to R55) -/

theorem countFin_eq {n : Nat} (p : Fin n → Bool) : countFin p = ((List.finRange n).filter p).length :=
  List.countP_eq_length_filter

theorem State.allRequest_iff (s : State) (q : PatternId) :
    s.allRequest q = true ↔ ∀ k r, s.presentRecord k = some r → r.requested.toFin = q := by
  simp only [State.allRequest, allFin_iff, Option.all_eq_true, beq_iff_eq]

/-- What two disjoint parts of a whole count. -/
theorem countP_disjoint {α : Type} {p q r : α → Bool} (l : List α) (inP : ∀ a, p a = true → r a = true)
    (inQ : ∀ a, q a = true → r a = true) (apart : ∀ a, p a = true → q a = false) :
    l.countP p + l.countP q ≤ l.countP r := by
  induction l with
  | nil => exact Nat.le_refl 0
  | cons a l ih =>
    rw [List.countP_cons, List.countP_cons, List.countP_cons]
    cases hp : p a with
    | true => rw [apart a hp, inP a hp]; simp; omega
    | false =>
      cases hq : q a with
      | true => rw [inQ a hq]; simp; omega
      | false => simp; omega

/-- A peer shows one active pattern. -/
theorem State.showing_add (s : State) {q q' : PatternId} (other : q ≠ q') :
    s.showing q + s.showing q' ≤ s.presentCount := by
  unfold State.showing State.presentCount countFin
  refine countP_disjoint _ (fun k shows => ?_) (fun k shows => ?_) (fun k shows => ?_)
  · obtain ⟨r, present, _⟩ := (Option.any_eq_true _ _).mp shows
    rw [present]; rfl
  · obtain ⟨r, present, _⟩ := (Option.any_eq_true _ _).mp shows
    rw [present]; rfl
  · obtain ⟨r, present, active⟩ := (Option.any_eq_true _ _).mp shows
    rw [beq_iff_eq] at active
    rw [present, Option.any_some, beq_eq_false_iff_ne, active]
    exact other

/-- The majority is one pattern at most (R53). -/
theorem State.majority_iff (s : State) (q : PatternId) :
    s.majority = some q ↔ q ≠ s.cycle.active ∧ s.presentCount < 2 * s.showing q := by
  have judged (r : PatternId) : (!(r == s.cycle.active) && decide (s.presentCount < 2 * s.showing r)) = true ↔
      r ≠ s.cycle.active ∧ s.presentCount < 2 * s.showing r := by
    rw [Bool.and_eq_true, Bool.not_eq_true', beq_eq_false_iff_ne, decide_eq_true_eq]
  constructor
  · intro major
    exact (judged q).mp (firstFin_some major)
  · intro holds
    refine firstFin_eq ((judged q).mpr holds) fun r less => ?_
    rw [← Bool.not_eq_true, judged]
    rintro ⟨_, strict⟩
    have := s.showing_add (Fin.ne_of_lt less)
    omega

theorem Cycle.positionStep_keeps (c : Cycle) (cLen : Nat) (heard : Bool) :
    (c.positionStep cLen heard).startHold = c.startHold ∧ (c.positionStep cLen heard).divCandidate = c.divCandidate ∧
      (c.positionStep cLen heard).divCount = c.divCount := by
  unfold Cycle.positionStep Cycle.hearMark Cycle.advance Cycle.setClock
  dsimp only
  repeat' split
  all_goals exact ⟨rfl, rfl, rfl⟩

theorem Cycle.agreementOpen_iff (c : Cycle) : c.agreementOpen = true ↔
    c.startHold = 50 ∧ (c.active = 0 ∨ c.set = true ∧ c.position = 0) := by
  simp only [Cycle.agreementOpen, Bool.and_eq_true, Bool.or_eq_true, beq_iff_eq]
  exact Iff.rfl

theorem Cycle.adoptAgreed_eq (p : Plan) (c : Cycle) : c.adoptAgreed p =
    if c.requested = 0 then { c with active := 0, divCount := 0, set := false, position := 0, unsetWait := 0 }
    else if c.active ≠ 0 ∧ p.cOf c.active = p.cOf c.requested then { c with active := c.requested, divCount := 0 }
    else { c with active := c.requested, divCount := 0, set := true, position := 0, unsetWait := 0 } := by
  unfold Cycle.adoptAgreed
  simp only [Bool.and_eq_true, Bool.not_eq_true', beq_eq_false_iff_ne, beq_iff_eq]
  split
  next zero => rw [zero]; rfl
  next => rfl

theorem agreementDisturbs_iff (p : Plan) (old new : PatternId) : agreementDisturbs p old new = true ↔ new ≠ 0 ∧
    (old = 0 ∨ p.cOf old ≠ p.cOf new ∨ (p.patternOf old).map (·.ofs) ≠ (p.patternOf new).map (·.ofs)) := by
  unfold agreementDisturbs
  simp only [Bool.and_eq_true, Bool.not_eq_true', beq_eq_false_iff_ne, beq_iff_eq]
  split
  next zero => simp [zero]
  next nonzero =>
    split
    next same => simp [nonzero, same.1, same.2]
    next other =>
      refine iff_of_true rfl ⟨nonzero, ?_⟩
      by_cases old0 : old = 0
      · exact .inl old0
      · exact .inr (.inl fun same => other ⟨old0, same⟩)

/-- The cycle unit before divergence and agreement: position and hold (R55, steps 1 and 2). -/
def Cycle.stepped (c : Cycle) (cLen : Nat) (heard : Bool) : Cycle :=
  { c.positionStep cLen heard with startHold := min (c.startHold + 1) 50 }

theorem Cycle.stepped_eq (c : Cycle) (cLen : Nat) (heard : Bool) :
    (c.positionStep cLen heard).holdStep = c.stepped cLen heard := by
  rw [Cycle.holdStep, (c.positionStep_keeps cLen heard).1]
  rfl

theorem Cycle.divergenceStep_adopts {c : Cycle} {q : PatternId} (held : c.divCandidate = some q) (third : 3 ≤ c.divCount) :
    c.divergenceStep (some q) = (c, true) := by
  unfold Cycle.divergenceStep
  dsimp only
  rw [if_pos held]
  exact if_neg (Nat.not_lt.mpr third)

theorem Cycle.divergenceStep_counts {c : Cycle} {q : PatternId} (held : c.divCandidate = some q) (few : c.divCount < 3) :
    c.divergenceStep (some q) = ({ c with divCount := c.divCount + 1 }, false) := by
  unfold Cycle.divergenceStep
  dsimp only
  rw [if_pos held]
  exact if_pos few

theorem Cycle.divergenceStep_new {c : Cycle} {q : PatternId} (other : c.divCandidate ≠ some q) :
    c.divergenceStep (some q) = ({ c with divCandidate := some q, divCount := 1 }, false) := if_neg other

/-- The fourth boundary with a majority adopts the candidate (R53, R54). -/
theorem State.cycleSteps_divergence {s : State} {q : PatternId} (major : s.majority = some q)
    (held : s.cycle.divCandidate = some q) (third : 3 ≤ s.cycle.divCount) (p : Plan) (heard : Bool) :
    s.cycleSteps p heard = ((s.cycle.stepped (p.cOf s.cycle.active) heard).adoptDivergent q,
      s.cycle.bigJump (p.cOf s.cycle.active) heard) := by
  obtain ⟨_, candidate, count⟩ := s.cycle.positionStep_keeps (p.cOf s.cycle.active) heard
  have adopts := Cycle.divergenceStep_adopts (c := s.cycle.stepped (p.cOf s.cycle.active) heard)
    (candidate.trans held) (count.symm ▸ third)
  unfold State.cycleSteps
  dsimp only
  rw [Cycle.stepped_eq, major, adopts]
  rfl

/-- Without an adoption by divergence, agreement is tried on the unit that `divergenceStep` leaves (R51, R55). -/
theorem State.cycleSteps_agreement {s : State} {p : Plan} {heard : Bool} {d : Cycle}
    (counted : (s.cycle.stepped (p.cOf s.cycle.active) heard).divergenceStep s.majority = (d, false)) :
    s.cycleSteps p heard = if d.agreementOpen && !(d.requested == d.active) && s.allRequest d.requested
      then (d.adoptAgreed p, s.cycle.bigJump (p.cOf s.cycle.active) heard || agreementDisturbs p d.active d.requested)
      else (d, s.cycle.bigJump (p.cOf s.cycle.active) heard) := by
  unfold State.cycleSteps
  dsimp only
  rw [Cycle.stepped_eq, counted]
  rfl

/-- The UNSET wait ends with the clock SET (R46). -/
theorem State.unsetWaitEnd_due {s : State} {p : Plan} (planned : s.plan = some p) (active : s.cycle.active ≠ 0)
    (unset : s.cycle.set = false) (last : s.cycle.unsetWait + 1 = p.cOf s.cycle.active) :
    s.unsetWaitEnd = State.cycleOutput { s with cycle := s.cycle.setClock } p s.cycle false := by
  unfold State.unsetWaitEnd
  rw [planned]
  refine if_pos ?_
  rw [beq_eq_false_iff_ne.mpr active, unset, last, beq_self_eq_true]
  rfl

theorem State.noticesOf_setClock {s : State} (unset : s.cycle.set = false) (p : Plan) :
    State.noticesOf { s with cycle := s.cycle.setClock } p s.cycle false =
      { patternChanged := none, clockUnset := false, clockSet := true, disturbed := false
        point := State.cyclePoint { s with cycle := s.cycle.setClock } p } := by
  have same : ({ s with cycle := s.cycle.setClock } : State).cycle.active = s.cycle.active := rfl
  rw [State.noticesOf, if_pos same, unset]
  rfl

theorem State.cyclePoint_unset {s : State} (unset : s.cycle.set = false) (p : Plan) : s.cyclePoint p = none := by
  rw [State.cyclePoint, unset]
  rfl

theorem State.noticesOf_divergent {s : State} {q : PatternId} (other : q ≠ s.cycle.active) (p : Plan) :
    State.noticesOf { s with cycle := s.cycle.adoptDivergent q } p s.cycle false =
      { patternChanged := some s.cycle.active, clockUnset := s.cycle.set, clockSet := false, disturbed := false
        point := none } := by
  have changed : ({ s with cycle := s.cycle.adoptDivergent q } : State).cycle.active ≠ s.cycle.active := other
  rw [State.noticesOf, if_neg changed, State.cyclePoint_unset rfl]
  cases s.cycle.set <;> rfl

theorem State.divergenceAdoption_due {s : State} {p : Plan} {q : PatternId} (planned : s.plan = some p)
    (major : s.majority = some q) (held : s.cycle.divCandidate = some q) (third : 3 ≤ s.cycle.divCount) :
    s.divergenceAdoption = State.cycleOutput { s with cycle := s.cycle.adoptDivergent q } p s.cycle false := by
  unfold State.divergenceAdoption
  rw [planned, major]
  exact if_pos ((s.cycle.divergenceStep_iff q).mpr ⟨held, third⟩)

/-- The unit that divergence leaves where it adopts nothing (R53). -/
theorem State.divergenceStep_open {s : State} {cLen : Nat} {heard : Bool} {d : Cycle}
    (counted : (s.majority = none ∧ d = { s.cycle.stepped cLen heard with divCandidate := none, divCount := 0 }) ∨
      (∃ q, s.majority = some q ∧ s.cycle.divCandidate = some q ∧ s.cycle.divCount < 3 ∧
        d = { s.cycle.stepped cLen heard with divCount := s.cycle.divCount + 1 }) ∨
      (∃ q, s.majority = some q ∧ s.cycle.divCandidate ≠ some q ∧
        d = { s.cycle.stepped cLen heard with divCandidate := some q, divCount := 1 })) :
    (s.cycle.stepped cLen heard).divergenceStep s.majority = (d, false) := by
  obtain ⟨_, candidate, count⟩ := s.cycle.positionStep_keeps cLen heard
  rcases counted with ⟨major, rfl⟩ | ⟨q, major, held, few, rfl⟩ | ⟨q, major, other, rfl⟩
  · rw [major]; rfl
  · rw [major, ← count]
    exact Cycle.divergenceStep_counts (candidate.trans held) (count.symm ▸ few)
  · rw [major]
    exact Cycle.divergenceStep_new fun same => other (candidate.symm.trans same)

/-- The cycle point of a SET clock, by its local position (R48). -/
theorem State.cyclePoint_set {s : State} {p : Plan} {d : PatternDef} (pattern : p.patternOf s.cycle.active = some d)
    (set : s.cycle.set = true) : s.cyclePoint p =
      if s.localPosition = 0 then some .zero
      else if s.localPosition = d.pREL then some .release
      else ((p.sequence.drop 1).find? fun t => d.pFO.nth t == s.localPosition).map .forceOff := by
  rw [State.cyclePoint, if_pos set, pattern]

/-- Settles O24: each row alone, then the boundary's steps with and without an adoption. -/
theorem cycleUnitCounts : Obligations.CycleUnitCounts := by
  refine ⟨fun s => ⟨s.mainGreen_iff, s.atMain_iff⟩, fun s p planned => ⟨fun last => ?hold, fun active unset last => ?wait,
    fun q major held third => ?adopts⟩, fun s p heard => rfl, fun s p before disturbed => ⟨rfl, s.requestMark_iff p⟩,
    fun s p heard c same => ⟨Cycle.bigJump_iff _ _ _, fun q major held third => ?divergence, fun d counted => ?agreement⟩,
    fun s q => ⟨s.allRequest_iff q, s.majority_iff q, countFin_eq _, countFin_eq _⟩,
    fun s p d pattern planned => ?point, fun s n => ?notices⟩
  case hold => exact next_of_rests (if_pos (by rw [planned, last]; rfl))
  case wait =>
    refine ⟨_, rfl, next_of_rests ?_, (State.takeNotices_follows _ _).trans (State.react_follows _)⟩
    rw [State.unsetWaitEnd_due planned active unset last, State.cycleOutput, State.noticesOf_setClock unset]
    rfl
  case adopts =>
    refine ⟨_, _, rfl, rfl, next_of_rests ?_, (State.takeNotices_follows _ _).trans (State.react_follows _)⟩
    rw [State.divergenceAdoption_due planned major held (Nat.le_of_eq third.symm), State.cycleOutput,
      State.noticesOf_divergent ((s.majority_iff q).mp major).1]
    rfl
  case divergence =>
    subst same
    exact State.cycleSteps_divergence major held third p heard
  case agreement =>
    subst same
    have tried : (d.agreementOpen && !(d.requested == d.active) && s.allRequest d.requested) = true ↔
        d.startHold = 50 ∧ (d.active = 0 ∨ d.set = true ∧ d.position = 0) ∧ d.requested ≠ d.active ∧
          s.allRequest d.requested = true := by
      rw [Bool.and_eq_true, Bool.and_eq_true, Cycle.agreementOpen_iff, Bool.not_eq_true', beq_eq_false_iff_ne, and_assoc,
        and_assoc]
    rw [State.cycleSteps_agreement (State.divergenceStep_open counted)]
    by_cases agreed : d.startHold = 50 ∧ (d.active = 0 ∨ d.set = true ∧ d.position = 0) ∧ d.requested ≠ d.active ∧
        s.allRequest d.requested = true
    · rw [if_pos (tried.mpr agreed), if_pos agreed, Cycle.adoptAgreed_eq, Bool.or_eq_true, agreementDisturbs_iff]
      refine ⟨or_congr_right ⟨fun disturbs => ?_, fun disturbs => ?_⟩, rfl⟩
      · obtain ⟨hold, start, other, all⟩ := agreed
        exact ⟨hold, start, other, all, disturbs⟩
      · obtain ⟨_, _, _, _, disturbs⟩ := disturbs
        exact disturbs
    · rw [if_neg (mt tried.mp agreed), if_neg agreed]
      refine ⟨⟨.inl, fun disturbs => disturbs.resolve_right fun ⟨hold, start, other, all, _⟩ =>
        agreed ⟨hold, start, other, all⟩⟩, rfl⟩
  case point =>
    refine ⟨fun unset => State.cyclePoint_unset unset p, fun set zero => ?_, fun set nonzero release => ?_,
      fun set nonzero other => ?_⟩
    · rw [State.cyclePoint_set pattern set, if_pos zero]
    · rw [State.cyclePoint_set pattern set, if_neg nonzero, if_pos release]
    · rw [State.cyclePoint_set pattern set, if_neg nonzero, if_neg other]
      refine ⟨fun t point => ?_, fun none_ t mem => ?_⟩
      · obtain ⟨x, found, same⟩ := Option.map_eq_some_iff.mp point
        cases same
        have here := List.find?_some found
        exact ⟨List.mem_of_find?_eq_some found, beq_iff_eq.mp here⟩
      · have := List.find?_eq_none.mp (Option.map_eq_none_iff.mp none_) t mem
        rwa [beq_iff_eq] at this
  case notices =>
    exact State.takeNotices_eq (s.takeNotices_release n) (s.takeNotices_forceOff n) (s.takeNotices_step n)

/-! ### The pattern lines (R50, R193, R198) -/

/-- A pattern line that moves no filtered pair, or that moves in DARK, moves its filter alone. -/
theorem State.patternLineChange_filter {s t : State} {line : PatternLine} {level : Bool} {held : Nat}
    (sampled : s.samplePattern line level held = t) (stands : t.panel.pairValue = t.cycle.pair ∨ s.ctrl.mode = .dark) :
    s.patternLineChange line level held = t := by
  unfold State.patternLineChange
  dsimp only
  rw [sampled]
  split
  next => rfl
  next on => exact if_pos (stands.resolve_right on)

theorem State.patternLineChange_judged {s t : State} {line : PatternLine} {level : Bool} {held : Nat}
    (on : s.ctrl.mode ≠ .dark) (sampled : s.samplePattern line level held = t) :
    s.patternLineChange line level held = t.judgePair := by
  unfold State.patternLineChange
  dsimp only
  rw [sampled, if_neg on]

/-- The pair is judged on the filtered levels: a new value starts its timing (R50). -/
theorem State.judgePair_eq (s : State) : s.judgePair = { s with cycle := if s.panel.pairValue = s.cycle.pair then s.cycle
    else { s.cycle with pair := s.panel.pairValue, pairTime := 0 } } := by
  unfold State.judgePair
  split <;> rfl

theorem Panel.pairValue_val (p : Panel) : p.pairValue.val =
    (if p.patternA.level = some true then 1 else 0) + (if p.patternB.level = some true then 2 else 0) := by
  have asserted (f : Filter) : f.level = some true ↔ f.asserted = true := beq_iff_eq.symm
  simp only [asserted]
  unfold Panel.pairValue
  cases p.patternA.asserted <;> cases p.patternB.asserted <;> rfl

theorem Filter.take_held {limit held : Nat} (long : limit ≤ held) (f : Filter) (l : Bool) :
    f.take true limit l held = { raw := l, time := limit, level := some l } := Filter.sample_held limit f l held long

theorem Filter.take_short {limit held : Nat} (short : held < limit) (f : Filter) (l : Bool) :
    f.take true limit l held = { raw := l, time := held, level := f.level } := Filter.sample_short limit f l held short

/-- The two pattern lines, each with its own filter (R193). -/
theorem State.samplePattern_eq (s : State) (level : Bool) (held : Nat) {runs : Bool} (supply : s.supplyOk = runs) :
    s.samplePattern .a level held =
      { s with panel := { s.panel with patternA := s.panel.patternA.take runs 3125 level held } } ∧
    s.samplePattern .b level held =
      { s with panel := { s.panel with patternB := s.panel.patternB.take runs 3125 level held } } := by
  subst supply
  exact ⟨rfl, rfl⟩

/-- Settles O25: the filter of each line, the pair where it is judged, and the request that it becomes. -/
theorem patternLinesGiveTheRequest : Obligations.PatternLinesGiveTheRequest := by
  refine ⟨fun s pin held => ⟨fun low stands => ?low, fun supplied dark long => ?dark⟩,
    fun s pin held supplied => ⟨fun on long => ?judgedA, fun on long => ?judgedB, fun short stands => ?short,
      Panel.pairValue_val, fun on long other => next_of_rests (if_pos (s.patternDue_iff.mpr ⟨on, long, other⟩))⟩⟩
  case low =>
    obtain ⟨a, b⟩ := s.samplePattern_eq (!pin) held low
    rw [Filter.take_low] at a b
    exact ⟨next_of_rests (State.patternLineChange_filter a stands), next_of_rests (State.patternLineChange_filter b stands)⟩
  case dark =>
    obtain ⟨a, b⟩ := s.samplePattern_eq (!pin) held supplied
    rw [Filter.take_held long] at a b
    exact ⟨next_of_rests (State.patternLineChange_filter a (.inr dark)),
      next_of_rests (State.patternLineChange_filter b (.inr dark))⟩
  case judgedA =>
    obtain ⟨a, _⟩ := s.samplePattern_eq (!pin) held supplied
    rw [Filter.take_held long] at a
    refine ⟨_, next_of_rests ((State.patternLineChange_judged on a).trans (State.judgePair_eq _)), rfl, rfl, rfl⟩
  case judgedB =>
    obtain ⟨_, b⟩ := s.samplePattern_eq (!pin) held supplied
    rw [Filter.take_held long] at b
    refine ⟨_, next_of_rests ((State.patternLineChange_judged on b).trans (State.judgePair_eq _)), rfl, rfl, rfl⟩
  case short =>
    obtain ⟨a, b⟩ := s.samplePattern_eq (!pin) held supplied
    rw [Filter.take_short short] at a b
    exact ⟨next_of_rests (State.patternLineChange_filter a stands), next_of_rests (State.patternLineChange_filter b stands)⟩

end Sys2Proof.Machine
end

section
/-! PROOFS. The commands of the signal groups (R66 to R74). -/

namespace Sys2Proof.Machine

/-! ### A change of one group -/

/-- A change of group `g` before what follows: the lamps take its command, and nothing else moves. -/
theorem State.groupChange_takes {s : State} {g : GroupId} {f : Group → Group} {r : Group} (taken : f (s.groups.nth g) = r) :
    ∃ u : State, s.groupChange g f = u.react ∧ s.follows u ∧ u.groups = s.groups.put g r ∧
      u.callers = s.callers ∧ u.seq = s.seq ∧ u.claims = s.claims ∧ u.ctrl = s.ctrl ∧
      u = State.lampSync { s with groups := u.groups } := by
  subst taken
  exact ⟨_, rfl, s.updGroup_lampSync_follows g f, rfl, rfl, rfl, rfl, rfl, rfl⟩

/-- The change of a group whose command is due. -/
theorem exec_groupChange {s t : State} {g : GroupId} {f : Group → Group} {r : Group} {e : Host.Outcome State Fault Refusal}
    (completes : e = .next t) (due : t = s.groupChange g f) (taken : f (s.groups.nth g) = r) :
    ∃ u : State, e = .next u.react ∧ s.follows u ∧ u.groups = s.groups.put g r ∧
      u.callers = s.callers ∧ u.seq = s.seq ∧ u.claims = s.claims ∧ u.ctrl = s.ctrl ∧
      u = State.lampSync { s with groups := u.groups } := by
  obtain ⟨u, next, rest⟩ := State.groupChange_takes taken
  exact ⟨u, by rw [completes, due, next], rest⟩

theorem Table.put_put {α : Type} {n : Nat} (t : Table α n) (i : Fin n) (a b : α) : (t.put i a).put i b = t.put i b :=
  Table.ext_nth fun j => by
    rw [Table.nth_put, Table.nth_put, Table.nth_put]
    split <;> rfl

/-! ### The grant of an open (R66) -/

theorem State.clearedFor_iff (s : State) (g : GroupId) : s.clearedFor g = true ↔ ∀ h, s.conflicts h g = true →
    (s.groups.nth h).state = .red ∧ 6250 * s.clearance h g ≤ (s.groups.nth h).time := by
  simp only [State.clearedFor, allFin_iff, Bool.or_eq_true, Bool.not_eq_true', Bool.and_eq_true, beq_iff_eq,
    decide_eq_true_eq, ← Bool.not_eq_true, Decidable.imp_iff_not_or]
  exact Iff.rfl

theorem State.clearToOpen_iff (s : State) (g : GroupId) : s.clearToOpen g = true ↔
    (s.groupPlan g).kind ≠ .unused ∧ (s.groups.nth g).state = .red ∧ (s.groups.nth g).held = .open ∧
      ∀ h, s.conflicts h g = true → (s.groups.nth h).state = .red ∧ 6250 * s.clearance h g ≤ (s.groups.nth h).time := by
  rw [State.clearToOpen, Bool.and_eq_true, Bool.and_eq_true, Bool.and_eq_true, State.used_iff, beq_iff_eq, beq_iff_eq,
    State.clearedFor_iff, and_assoc, and_assoc]

theorem State.grantable_iff (s : State) (g : GroupId) : s.grantable g = true ↔ s.clearToOpen g = true ∧
    ∀ h, h < g → s.conflicts h g = true → s.clearToOpen h = false := by
  rw [State.grantable, Bool.and_eq_true, Bool.not_eq_true', ← Bool.not_eq_true, anyFin_iff]
  simp only [Bool.and_eq_true, decide_eq_true_eq, not_exists, not_and, Bool.not_eq_true, and_imp]

theorem State.leaveRed_prepare {s : State} {g : GroupId} (prepares : 0 < (s.groupPlan g).tPRE) :
    s.leaveRed g = (s.updGroup g Group.toPrepare).lampSync := if_pos prepares

theorem State.leaveRed_green {s : State} {g : GroupId} (atOnce : (s.groupPlan g).tPRE = 0) :
    s.leaveRed g = (s.updGroup g fun r => { r with held := .none }).enterGreen g :=
  if_neg (Nat.not_lt.mpr (Nat.le_of_eq atOnce))

theorem Group.toGreen_eq (r : Group) (gap : Nat) : r.toGreen gap =
    { state := .green, held := if r.held = .close then .close else .none, time := 0, minDone := false, gapped := false
      gap := gap, maxRunning := false, maxLeft := 0, maxDone := false } := by
  unfold Group.toGreen
  rfl

/-- The entry of GREEN: the group, its locking callers and the lamps (R68, R115). -/
theorem State.enterGreen_eq (s : State) (g : GroupId) : s.enterGreen g = State.lampSync { s with
    groups := s.groups.put g
      { state := .green, held := if (s.groups.nth g).held = .close then .close else .none, time := 0
        minDone := false, gapped := false, gap := if s.gapTimed g then 6250 * (s.groupPlan g).tGAP else 0
        maxRunning := false, maxLeft := 0, maxDone := false }
    callers := s.callers.put g 0 } := by
  rw [State.enterGreen, Table.upd, Group.toGreen_eq]
  rfl

/-- Settles O27: by tPRE, and by a lower-numbered group that is clear to open too. -/
theorem openGrantLeavesRed : Obligations.OpenGrantLeavesRed := by
  refine ⟨fun s g => ⟨s.clearToOpen_iff g, s.grantable_iff g⟩, fun s g clear => ⟨fun grant prepares => ?prepare,
    fun grant atOnce => ?green, fun other => ?waits⟩⟩
  case prepare =>
    refine ⟨(s.updGroup g Group.toPrepare).lampSync, next_of_rests ?_, s.updGroup_lampSync_follows g _, rfl, rfl, rfl⟩
    rw [State.openGrant, if_pos grant, State.leaveRed_prepare prepares]
  case green =>
    refine ⟨s.leaveRed g, next_of_rests (if_pos grant), s.leaveRed_follows g, ?_, ?_, ?_⟩
    all_goals rw [State.leaveRed_green atOnce, State.enterGreen_eq]
    · show (s.groups.upd g _).put g _ = _
      rw [Table.upd, Table.put_put, State.updGroup_nth, if_pos rfl]
      rfl
    · rfl
    · rfl
  case waits =>
    refine next_of_rests ?_
    rw [State.openGrant, other, clear]
    rfl

/-! ### The ends of the group times (R67 to R74) -/

/-- Settles O28. -/
theorem prepareEndEntersGreen : Obligations.PrepareEndEntersGreen := by
  intro s g prepare lasted
  refine ⟨s.enterGreen g, next_of_rests (if_pos ((s.prepareDue_iff g).mpr ⟨prepare, lasted⟩)), s.enterGreen_follows g,
    ?_, rfl, rfl, rfl, rfl, rfl⟩
  rw [State.enterGreen_eq]
  rfl

/-- Settles O29: min-done is set, and a held close is granted. -/
theorem minGreenEndSetsMinDone : Obligations.MinGreenEndSetsMinDone := by
  intro s g green open_ lasted
  obtain ⟨u, next, follows, groups, rest⟩ := exec_groupChange (e := exec (.minGreenEnd g) s) rfl
    (if_pos ((s.minGreenDue_iff g).mpr ⟨green, open_, lasted⟩)) rfl
  refine ⟨u, next, follows, fun h other => ?_, fun unheld => ?_, fun held => ?_, rest⟩
  all_goals rw [groups]
  · exact Table.nth_put_ne _ _ (Ne.symm other)
  · rw [Table.nth_put_self, Group.minGreen, if_neg unheld]
  · rw [Table.nth_put_self, Group.minGreen, if_pos held]
    rfl

/-- Settles O30: each end as a change of its own group. -/
theorem gapMaxAndClearingEnd : Obligations.GapMaxAndClearingEnd := by
  intro s g
  refine ⟨fun green timed open_ zero empty => exec_groupChange rfl (if_pos ?_) rfl,
    fun green runs open_ zero minDone => exec_groupChange rfl (if_pos ?_) rfl,
    fun clearing lasted => exec_groupChange rfl (if_pos ?_) rfl⟩
  · exact (s.gapDue_iff g).mpr ⟨green, timed, open_, zero, empty⟩
  · exact (s.maxDue_iff g).mpr ⟨green, runs, open_, zero, minDone⟩
  · exact (s.clearingDue_iff g).mpr ⟨clearing, lasted⟩

end Sys2Proof.Machine
end

section
/-! PROOFS. The commands of the local detectors (R110 to R126). -/

namespace Sys2Proof.Machine

/-- A detector whose command is due: it alone changes, and then what follows. -/
theorem exec_detector {s t : State} {d : LocalId} {f : Det → Det} {r : Det} {e : Host.Outcome State Fault Refusal}
    (completes : e = .next t) (due : t = (s.updDet d f).react) (taken : f (s.dets.nth d) = r) :
    e = .next (State.react { s with dets := s.dets.put d r }) := by
  subst taken
  rw [completes, due]
  rfl

theorem State.detectorInputChange_moves {s : State} {d : LocalId} {level : Bool} (moves : level ≠ (s.dets.nth d).raw) :
    s.detectorInputChange d level =
      { s with dets := s.dets.put d { s.dets.nth d with raw := level, filt := 0 } } := by
  rw [State.detectorInputChange, State.updDet, Table.upd, Det.inputChange, if_neg moves]

theorem State.initialLevel_due {s : State} {d : LocalId} {f : LocalDef} (local_ : s.localDef d = some f)
    (due : (s.dets.nth d).initialDue f = true) : s.initialLevel d = (s.updDet d (Det.takeInitial f)).react := by
  unfold State.initialLevel
  rw [local_]
  exact if_pos due

theorem State.detectorFallingEdge_due {s : State} {d : LocalId} {f : LocalDef} (local_ : s.localDef d = some f)
    (due : (s.dets.nth d).edgeDue f = true) (level : (s.dets.nth d).level = true) :
    s.detectorFallingEdge d = (s.updDet d (Det.fall f)).react := by
  unfold State.detectorFallingEdge
  rw [local_]
  exact if_pos (by rw [due, level]; rfl)

theorem State.faultStuck_due {s : State} {d : LocalId} {f : LocalDef} (local_ : s.localDef d = some f)
    (due : (s.dets.nth d).stuckDue f = true) :
    s.faultStuck d = (s.updDet d fun r => { r with fault := .stuck, silence := none }).react := by
  unfold State.faultStuck
  rw [local_]
  exact if_pos due

theorem State.faultSilent_due {s : State} {d : LocalId} {f : LocalDef} (local_ : s.localDef d = some f)
    (due : (s.dets.nth d).silentDue f = true) :
    s.faultSilent d = (s.updDet d fun r => { r with fault := .silent }).react := by
  unfold State.faultSilent
  rw [local_]
  exact if_pos due

/-- Settles O33: the raw move alone, and the initial level with what follows. -/
theorem detectorFilterAndInitialLevel : Obligations.DetectorFilterAndInitialLevel := by
  refine ⟨fun s d pin moves => next_of_rests (State.detectorInputChange_moves moves),
    fun s d f local_ untaken lasted => ?initial⟩
  have due : (s.dets.nth d).initialDue f = true := (Det.initialDue_iff f _).mpr ⟨untaken, lasted⟩
  refine ⟨_, exec_detector rfl (State.initialLevel_due local_ due) rfl, rfl, ?_⟩
  simp only [State.react_dets, State.react_claims_own, State.react_claims_refused, State.react_line, State.react_cycle,
    State.react_peers, State.react_plan, State.react_panel, and_self, and_true]
  rfl

/-! ### Edges -/

/-- What a rising edge makes of its detector (R112, R113, R120, R126). -/
theorem Det.rise_eq (f : LocalDef) (d : Det) : d.rise f = { d with
    level := true, filt := 0
    pulse := if f.mode = .pulse then some 0 else d.pulse
    fault := if d.fault = .silent then .normal else d.fault
    presence := some 0
    silence := if d.fault = .stuck ∨ f.tMSL = 0 then none else some 0
    active := some 0
    count := d.count + 1 } := by
  have silence : (if d.fault = .stuck then none else f.silenceStart) =
      if d.fault = .stuck ∨ f.tMSL = 0 then none else some 0 := by
    unfold LocalDef.silenceStart
    by_cases stuck : d.fault = .stuck
    · rw [if_pos stuck, if_pos (.inl stuck)]
    · rw [if_neg stuck]
      simp only [stuck, false_or]
  rw [Det.rise, silence]

/-- A press joins the locking callers of each group of its list that is not GREEN (R113, R115). -/
theorem State.press_callers (s : State) (d : LocalId) (f : LocalDef) (g : GroupId) (e : LocalId) :
    BitSet.has ((s.press d f).callers.nth g) e = (BitSet.has (s.callers.nth g) e ||
      (e == d && BitSet.has f.calls g && !((s.groups.nth g).state == .green))) := by
  have pressed : (s.press d f).callers.nth g = if BitSet.has f.calls g && !((s.groups.nth g).state == .green)
      then s.callers.nth g ||| bitsOf (fun e => e == d) else s.callers.nth g := Table.nth_tab _ g
  rw [pressed, Bool.and_assoc]
  cases BitSet.has f.calls g && !((s.groups.nth g).state == .green) with
  | true => rw [if_pos rfl, BitSet.has_or, BitSet.has_bitsOf, Bool.and_true]
  | false => rw [if_neg nofun, Bool.and_false, Bool.or_false]

/-- Settles O34: the detector's own part by `rise_eq`, the calls by mode. -/
theorem risingEdgeActsByMode : Obligations.RisingEdgeActsByMode := by
  intro s d f local_ taken low high lasted mode
  refine ⟨(s.updDet d (Det.rise f)).edgeByMode d f, State.detectorRisingEdge_eq local_ taken low high lasted, ?_⟩
  have dets : (s.updDet d (Det.rise f)).dets = s.dets.put d ((s.dets.nth d).rise f) := rfl
  rw [Det.rise_eq] at dets
  unfold State.edgeByMode
  rcases mode with mode | mode | mode <;> rw [mode] at dets ⊢
  · exact ⟨dets, fun g e => (Bool.or_false _).symm, rfl⟩
  · exact ⟨dets, fun g e => (Bool.or_false _).symm, rfl⟩
  · refine ⟨dets, fun g e => ?_, rfl⟩
    exact (s.updDet d (Det.rise f)).press_callers d f g e

/-- Settles O37. -/
theorem fallingEdgeWritesTheCapture : Obligations.FallingEdgeWritesTheCapture := by
  intro s d f local_ taken high low lasted
  have due : (s.dets.nth d).edgeDue f = true := Det.edgeDue_of taken (by rw [high, low]; nofun) lasted
  refine ⟨_, _, rfl, exec_detector rfl (State.detectorFallingEdge_due local_ due high) rfl, rfl, ?_⟩
  simp only [State.react_dets, State.react_claims_own, State.react_line, State.react_cycle, State.react_peers,
    State.react_plan, and_self, and_true]
  rfl

/-- Settles O38: each end by the condition of its command. -/
theorem detectorTimesEnd : Obligations.DetectorTimesEnd := by
  intro s d f n local_
  refine ⟨fun pulse lasted => exec_detector rfl (if_pos ((Det.pulseDue_iff _).mpr ⟨n, pulse, lasted⟩)) rfl,
    fun normal present lasted => exec_detector rfl (State.faultStuck_due local_ ?_) rfl,
    fun normal empty silent lasted => exec_detector rfl (State.faultSilent_due local_ ?_) rfl,
    fun level => next_of_rests (State.faultSilent_rests fun _ _ => .inr (.inl level))⟩
  · exact (Det.stuckDue_iff f _).mpr ⟨normal, n, present, by rw [minute_eq]; exact lasted⟩
  · exact (Det.silentDue_iff f _).mpr ⟨normal, empty, n, silent, by rw [hour_eq]; exact lasted⟩

end Sys2Proof.Machine
end

section
/-! PROOFS. The edges of CLAIM and CHECKOUT detectors (R130, R134, R135, R142). -/

namespace Sys2Proof.Machine

/-! ### The claim table -/

/-- An identity that the table does not hold. -/
theorem State.findClaim_isNone {s : State} {origin : StationId} {serial : Fin 16} :
    (s.findClaim origin serial).isSome = false ↔ ∀ e ∈ s.claims.table, ¬ (e.origin = origin ∧ e.serial = serial) := by
  rw [Option.isSome_eq_false_iff, Option.isNone_iff_eq_none, State.findClaim, List.find?_eq_none]
  simp only [ClaimEntry.is_iff]

theorem State.findClaim_isSome {s : State} {origin : StationId} {serial : Fin 16} :
    (s.findClaim origin serial).isSome = true ↔ ∃ e ∈ s.claims.table, e.origin = origin ∧ e.serial = serial := by
  rw [State.findClaim, List.find?_isSome]
  simp only [ClaimEntry.is_iff]

theorem ClaimEntry.displaceable_iff (e : ClaimEntry) :
    e.displaceable = true ↔ e.priority = .transit ∧ e.state ≠ .serving := by
  rw [ClaimEntry.displaceable, Bool.and_eq_true, beq_iff_eq, Bool.not_eq_true', beq_eq_false_iff_ne]

/-- The newest entry of its kind leaves the list. -/
theorem dropLast_split {α : Type} {p : α → Bool} {l r : List α} {x : α} (here : p x = true) (last : ∀ y ∈ r, p y = false) :
    dropLast p (l ++ x :: r) = l ++ r := by
  unfold dropLast
  rw [List.reverse_append, List.reverse_cons, List.append_assoc, List.singleton_append,
    eraseP_split l.reverse (fun y mem => last y (List.mem_reverse.mp mem)) here, List.reverse_append,
    List.reverse_reverse, List.reverse_reverse]

theorem State.offer_room {s : State} (room : s.claims.table.length < 8) (e : ClaimEntry) :
    s.offer e = s.withClaimTable (s.claims.table ++ [e]) := if_pos room

/-- A full table loses its newest TRANSIT entry that is not SERVING to an EMERGENCY claim (R135). -/
theorem State.offer_displaces {s : State} {e x : ClaimEntry} {l r : List ClaimEntry} (full : 8 ≤ s.claims.table.length)
    (emergency : e.priority = .emergency) (table : s.claims.table = l ++ x :: r) (here : x.displaceable = true)
    (last : ∀ y ∈ r, y.displaceable = false) : s.offer e = s.withClaimTable (l ++ r ++ [e]) := by
  have some_ : s.claims.table.any ClaimEntry.displaceable = true :=
    List.any_eq_true.mpr ⟨x, by rw [table]; exact List.mem_append_right _ List.mem_cons_self, here⟩
  unfold State.offer
  dsimp only
  rw [if_neg (Nat.not_lt.mpr full), if_pos ⟨emergency, some_⟩, table, dropLast_split here last]

theorem State.offer_overflows {s : State} {e : ClaimEntry} (full : 8 ≤ s.claims.table.length)
    (kept : e.priority = .transit ∨ ∀ y ∈ s.claims.table, y.displaceable = false) :
    s.offer e = { s with claims := { s.claims with overflow := s.claims.overflow + 1 } } := by
  unfold State.offer
  dsimp only
  rw [if_neg (Nat.not_lt.mpr full), if_neg]
  rintro ⟨emergency, some_⟩
  rcases kept with transit | stand
  · rw [transit] at emergency; cases emergency
  · obtain ⟨y, mem, here⟩ := List.any_eq_true.mp some_
    rw [stand y mem] at here; cases here

theorem State.offerOwn_none {s : State} {p : Plan} {o : OwnClaim} (none_ : (p.routes.nth o.route).stage = none) :
    s.offerOwn p o = s := by
  unfold State.offerOwn; rw [none_]

theorem State.offerOwn_held {s : State} {p : Plan} {o : OwnClaim} (held : (s.findClaim p.station o.serial).isSome = true) :
    s.offerOwn p o = s := by
  unfold State.offerOwn
  split
  · rfl
  · exact if_pos held

theorem State.offerOwn_entered {s : State} {p : Plan} {o : OwnClaim} {c : StageId}
    (stage : (p.routes.nth o.route).stage = some c) (free : (s.findClaim p.station o.serial).isSome = false) :
    s.offerOwn p o = s.offer (o.entry p.station c) := by
  unfold State.offerOwn
  rw [stage]
  exact if_neg (by rw [free]; nofun)

/-! ### Claim edges (R130, R134) -/

/-- At most two serials are held by a list of fewer than three own claims. -/
theorem OwnClaims.serials_few {own : List OwnClaim} (few : own.length < 3) :
    ∃ a b : Fin 16, ∀ m, (own.any fun o => o.serial == m) = true → m = a ∨ m = b := by
  match own, few with
  | [], _ => exact ⟨0, 0, nofun⟩
  | [x], _ => exact ⟨x.serial, x.serial, fun m here => .inl (by simpa using Eq.symm (by simpa using here : x.serial = m))⟩
  | [x, y], _ =>
    refine ⟨x.serial, y.serial, fun m here => ?_⟩
    simp only [List.any_cons, List.any_nil, Bool.or_false, Bool.or_eq_true, beq_iff_eq] at here
    exact here.imp Eq.symm Eq.symm

/-- The next serial passes over those that listed own claims hold (R130). -/
theorem freeSerial_next {own : List OwnClaim} (few : own.length < 3) (n : Fin 16) :
    ∃ j : Fin 16, freeSerial own 16 n = n + j ∧ (∀ x ∈ own, x.serial ≠ n + j) ∧
      ∀ i, i < j → ∃ x ∈ own, x.serial = n + i := by
  obtain ⟨a, b, two⟩ := OwnClaims.serials_few few
  obtain ⟨j, next, held, free⟩ := freeSerial_law a b n 13 own two
  refine ⟨j, next, fun x mem => ?_, fun i less => ?_⟩
  · exact fun same => List.any_eq_false.mp free x mem (beq_iff_eq.mpr same)
  · obtain ⟨x, mem, same⟩ := List.any_eq_true.mp (held i less)
    exact ⟨x, mem, beq_iff_eq.mp same⟩

/-- A rising edge of a detector that is not PULSE makes its own part (R113, R120, R126). -/
theorem State.updDet_rise {s : State} {d : LocalId} {f : LocalDef} (mode : f.mode ≠ .pulse) : s.updDet d (Det.rise f) =
    { s with dets := s.dets.put d { s.dets.nth d with
      level := true, filt := 0
      fault := if (s.dets.nth d).fault = .silent then .normal else (s.dets.nth d).fault
      presence := some 0
      silence := if (s.dets.nth d).fault = .stuck ∨ f.tMSL = 0 then none else some 0
      active := some 0
      count := (s.dets.nth d).count + 1 } } := by
  rw [State.updDet, Table.upd, Det.rise_eq, if_neg mode]

/-- Only PRESENCE, PULSE and BUTTON detectors make locking calls (R113, R115). -/
theorem State.callsLocking_other {s : State} {d : LocalId} {f : LocalDef} (local_ : s.localDef d = some f)
    (other : f.mode ≠ .presence ∧ f.mode ≠ .pulse ∧ f.mode ≠ .button) (g : GroupId) : s.callsLocking d g = false := by
  rw [← Bool.not_eq_true, State.callsLocking_iff]
  rintro ⟨f', same, _, calls⟩
  rw [local_] at same
  cases same
  obtain ⟨presence, pulse, button⟩ := other
  rcases calls with ⟨mode, _⟩ | ⟨mode, _⟩ | ⟨mode, _⟩
  · exact presence mode
  · exact pulse mode
  · exact button mode

/-- Settles O35: the edge by `claimEdge_raises` and `claimEdge_refused`, the offer by room in the table. -/
theorem claimEdgeRaisesOrIsRefused : Obligations.ClaimEdgeRaisesOrIsRefused := by
  refine ⟨fun s d f p n q dets planned local_ taken low high lasted mode after => ?edge,
    fun s p o => ⟨fun rests => ?unentered, fun c stage free => State.offerOwn_entered stage (State.findClaim_isNone.mpr free)⟩,
    fun s e => ⟨fun room => State.offer_room room e, fun full emergency l x r table transit unserved last => ?displaced,
      fun full kept => State.offer_overflows full ?kept⟩⟩
  case edge =>
    have own : s.updDet d (Det.rise f) = { s with dets := dets } := by
      rw [after]; exact State.updDet_rise (by rw [mode]; nofun)
    have edge : exec (.detectorRisingEdge d) s = .next (State.claimEdge { s with dets := dets } n q).react := by
      rw [State.detectorRisingEdge_eq local_ taken low high lasted, own, State.edgeByMode, mode]
    refine ⟨State.callsLocking_other local_ (by rw [mode]; exact ⟨nofun, nofun, nofun⟩), fun few free => ?_,
      fun refused => ?_⟩
    · obtain ⟨j, next, fresh, passed⟩ := freeSerial_next (own := s.claims.own ++ [p.raise s.claims.nextSerial n q])
        (by rw [List.length_append, List.length_singleton]; omega) (s.claims.nextSerial + 1)
      refine ⟨p.raise s.claims.nextSerial n q, _, rfl, ⟨j, next, ?_, passed⟩, ?_⟩
      · rw [next]; exact fresh
      · rw [edge, State.claimEdge_raises (s := { s with dets := dets }) q planned few free]
        rfl
    · rw [edge, State.claimEdge_refused (s := { s with dets := dets }) q planned refused]
  case unentered =>
    rcases rests with none_ | held
    · exact State.offerOwn_none none_
    · exact State.offerOwn_held (State.findClaim_isSome.mpr held)
  case displaced =>
    refine State.offer_displaces full emergency table (x.displaceable_iff.mpr ⟨transit, unserved⟩) fun y mem => ?_
    rw [← Bool.not_eq_true, ClaimEntry.displaceable_iff]
    exact last y mem
  case kept =>
    refine kept.imp_right fun stand y mem => ?_
    rw [← Bool.not_eq_true, ClaimEntry.displaceable_iff]
    exact stand y mem

/-! ### Check-out edges (R142) -/

theorem State.serving_iff (s : State) (n : RouteId) :
    s.serving n = true ↔ ∃ e ∈ s.claims.table, e.route = n ∧ e.state = .serving := by
  simp only [State.serving, List.any_eq_true, Bool.and_eq_true, beq_iff_eq]

/-- A check-out edge with a SERVING entry of its route clears the oldest such entry. -/
theorem State.checkOut_serving {s : State} {n : RouteId} {l r : List ClaimEntry} {e : ClaimEntry}
    (table : s.claims.table = l ++ e :: r) (route : e.route = n) (serves : e.state = .serving)
    (first : ∀ x ∈ l, ¬ (x.route = n ∧ x.state = .serving)) : s.checkOut n = State.arbitrate
      { s with claims := { s.claims with
        table := l ++ { e with state := .cleared, hold := none, clearedOrder := some s.claims.place } :: r
        clearPlace := some s.claims.place } } := by
  have serving : s.serving n = true := (s.serving_iff n).mpr ⟨e, by rw [table]; simp, route, serves⟩
  have kind (x : ClaimEntry) : (x.route == n && x.state == .serving) = true ↔ x.route = n ∧ x.state = .serving := by
    rw [Bool.and_eq_true, beq_iff_eq, beq_iff_eq]
  rw [State.checkOut, if_pos serving, State.clearFirst_split table
    (fun x mem => Bool.eq_false_iff.mpr (mt (kind x).mp (first x mem))) ((kind e).mpr ⟨route, serves⟩)]

/-- Without a SERVING entry the oldest entry of the route that is not EXPIRED is looked at. -/
theorem State.checkOut_waiting {s : State} {n : RouteId} {l r : List ClaimEntry} {e : ClaimEntry}
    (idle : ∀ x ∈ s.claims.table, ¬ (x.route = n ∧ x.state = .serving)) (table : s.claims.table = l ++ e :: r)
    (route : e.route = n) (alive : e.state ≠ .expired) (first : ∀ x ∈ l, x.route = n → x.state = .expired) :
    s.checkOut n = if e.state = .cleared then s else
      { s with claims := { s.claims with
        table := l ++ { e with state := .cleared, hold := none, clearedOrder := some s.claims.place } :: r
        clearPlace := some s.claims.place } } := by
  have unserved : s.serving n ≠ true := fun h => by
    obtain ⟨x, mem, here⟩ := (s.serving_iff n).mp h
    exact idle x mem here
  have passed : ∀ x ∈ l, (x.route == n && !(x.state == .expired)) = false := fun x mem => by
    rw [← Bool.not_eq_true, Bool.and_eq_true, beq_iff_eq, Bool.not_eq_true', beq_eq_false_iff_ne]
    exact fun h => h.2 (first x mem h.1)
  have here : (e.route == n && !(e.state == .expired)) = true := by
    rw [Bool.and_eq_true, beq_iff_eq, Bool.not_eq_true', beq_eq_false_iff_ne]
    exact ⟨route, alive⟩
  have found : s.claims.table.find? (fun e => e.route == n && !(e.state == .expired)) = some e := by
    rw [table]; exact find_split r passed here
  rw [State.checkOut, if_neg unserved, found]
  dsimp only
  rw [State.clearFirst_split table passed here]

theorem State.checkOut_none {s : State} {n : RouteId} (gone : ∀ x ∈ s.claims.table, x.route = n → x.state = .expired) :
    s.checkOut n = s := by
  have unserved : s.serving n ≠ true := fun h => by
    obtain ⟨x, mem, route, serves⟩ := (s.serving_iff n).mp h
    rw [gone x mem route] at serves
    cases serves
  have found : s.claims.table.find? (fun e => e.route == n && !(e.state == .expired)) = none := by
    refine List.find?_eq_none.mpr fun x mem => ?_
    rw [Bool.and_eq_true, beq_iff_eq, Bool.not_eq_true', beq_eq_false_iff_ne]
    exact fun h => h.2 (gone x mem h.1)
  rw [State.checkOut, if_neg unserved, found]

theorem Claims.place_of {c : Claims} {place : Nat} (held : c.clearPlace = some place) : c.place = place := by
  rw [Claims.place, held]

/-- Settles O36: the edge by the entries of its route. -/
theorem checkOutEdgeClearsAnEntry : Obligations.CheckOutEdgeClearsAnEntry := by
  refine ⟨fun s d f n u local_ mode taken low high lasted after => ?edge,
    fun c => ⟨fun place held => Claims.place_of held, fun none_ e mem m order => Claims.place_above none_ mem order⟩⟩
  have own : s.updDet d (Det.rise f) = u := by
    rw [after]; exact State.updDet_rise (by rw [mode]; nofun)
  have edge : exec (.detectorRisingEdge d) s = .next (u.checkOut n).react := by
    rw [State.detectorRisingEdge_eq local_ taken low high lasted, own, State.edgeByMode, mode]
  have claims : u.claims = s.claims := by rw [after]
  rw [← claims, edge]
  refine ⟨State.callsLocking_other local_ (by rw [mode]; exact ⟨nofun, nofun, nofun⟩),
    fun l r e table route serves first => ?_, fun l r e idle table route first => ⟨fun waits => ?_, fun cleared => ?_⟩,
    fun gone => ?_⟩
  · rw [State.checkOut_serving table route serves first]
  · have alive : e.state ≠ .expired ∧ e.state ≠ .cleared := by rcases waits with h | h <;> rw [h] <;> exact ⟨nofun, nofun⟩
    rw [State.checkOut_waiting idle table route alive.1 first, if_neg alive.2]
  · rw [State.checkOut_waiting idle table route (by rw [cleared]; nofun) first, if_pos cleared]
  · rw [State.checkOut_none gone]

end Sys2Proof.Machine
end

section
/-! PROOFS. Readiness, arrival and arbitration of claims (R136 to R141). -/

namespace Sys2Proof.Machine

/-! ### The commands of one entry (R136, R140) -/

theorem State.claimReady_due {s : State} {l r : List ClaimEntry} {e : ClaimEntry} (table : s.claims.table = l ++ e :: r)
    (first : ∀ x ∈ l, ¬ (x.origin = e.origin ∧ x.serial = e.serial)) (due : s.leadReached e = true) :
    s.claimReady e.origin e.serial = (s.withClaimTable (l ++ e.becomeReady :: r)).arbitrate.react := by
  unfold State.claimReady
  rw [State.findClaim_split table first]
  dsimp only
  rw [if_pos due, State.updClaim_split _ table first]

theorem State.claimArrived_due {s : State} {l r : List ClaimEntry} {e : ClaimEntry} (table : s.claims.table = l ++ e :: r)
    (first : ∀ x ∈ l, ¬ (x.origin = e.origin ∧ x.serial = e.serial)) (due : e.arrivalDue = true) :
    s.claimArrived e.origin e.serial =
      if e.state = .waiting then (s.withClaimTable (l ++ e.arrive s.holdTicks :: r)).arbitrate.react
      else s.withClaimTable (l ++ e.arrive s.holdTicks :: r) := by
  unfold State.claimArrived
  rw [State.findClaim_split table first]
  dsimp only
  rw [if_pos due, State.updClaim_split _ table first]

theorem ClaimEntry.arrive_waiting {e : ClaimEntry} (waits : e.state = .waiting) (hold : Priority → Nat) :
    e.arrive hold = { e with state := .ready, arrived := true } := by
  rw [ClaimEntry.arrive, if_pos waits, if_neg (by rw [waits]; nofun)]

theorem ClaimEntry.arrive_serving {e : ClaimEntry} (serves : e.state = .serving) (hold : Priority → Nat) :
    e.arrive hold = { e with arrived := true, hold := some (hold e.priority) } := by
  rw [ClaimEntry.arrive, if_pos serves, if_neg (by rw [serves]; nofun)]

theorem ClaimEntry.arrive_other {e : ClaimEntry} (unwaiting : e.state ≠ .waiting) (unserved : e.state ≠ .serving)
    (hold : Priority → Nat) : e.arrive hold = { e with arrived := true } := by
  rw [ClaimEntry.arrive, if_neg unwaiting, if_neg unserved]

/-! ### Arbitration -/

theorem ClaimEntry.waitsService_iff (sv : Priority → Bool) (e : ClaimEntry) :
    e.waitsService sv = true ↔ e.state = .ready ∧ sv e.priority = true := by
  rw [ClaimEntry.waitsService, Bool.and_eq_true, beq_iff_eq]

/-- A READY EMERGENCY entry whose priority is served. -/
theorem ClaimEntry.waitsEmergency_iff (sv : Priority → Bool) (e : ClaimEntry) :
    (e.waitsService sv && e.priority == .emergency) = true ↔
      e.state = .ready ∧ sv e.priority = true ∧ e.priority = .emergency := by
  rw [Bool.and_eq_true, ClaimEntry.waitsService_iff, beq_iff_eq, and_assoc]

/-- What the choice of `f` makes of the table: `f`, and every other READY entry of its stage and priority (R138). -/
def serveWith (hold : Priority → Nat) (sv : Priority → Bool) (f : ClaimEntry) (t : List ClaimEntry) : List ClaimEntry :=
  t.map fun x =>
    if x.state = .ready ∧ sv x.priority = true ∧ x.priority = f.priority ∧ x.stage = f.stage then x.toServing hold else x

theorem chooseService_eq (hold : Priority → Nat) (sv : Priority → Bool) (t : List ClaimEntry) : chooseService hold sv t =
    match (t.find? fun e => e.waitsService sv && e.priority == .emergency).or (t.find? fun e => e.waitsService sv) with
    | none => t
    | some f => serveWith hold sv f t := by
  have kind (f x : ClaimEntry) : (x.waitsService sv && x.priority == f.priority && x.stage == f.stage) = true ↔
      x.state = .ready ∧ sv x.priority = true ∧ x.priority = f.priority ∧ x.stage = f.stage := by
    rw [Bool.and_eq_true, Bool.and_eq_true, ClaimEntry.waitsService_iff, beq_iff_eq, beq_iff_eq, and_assoc, and_assoc]
  unfold chooseService serveWith
  simp only [kind]
  cases t.find? fun e => e.waitsService sv && e.priority == .emergency <;> rfl

theorem chooseService_idle {sv : Priority → Bool} {t : List ClaimEntry}
    (idle : ∀ e ∈ t, ¬ (e.state = .ready ∧ sv e.priority = true)) (hold : Priority → Nat) : chooseService hold sv t = t := by
  have waits : t.find? (fun e => e.waitsService sv) = none :=
    List.find?_eq_none.mpr fun e mem => mt (ClaimEntry.waitsService_iff sv e).mp (idle e mem)
  have emergency : t.find? (fun e => e.waitsService sv && e.priority == .emergency) = none :=
    List.find?_eq_none.mpr fun e mem h => idle e mem
      ⟨((ClaimEntry.waitsEmergency_iff sv e).mp h).1, ((ClaimEntry.waitsEmergency_iff sv e).mp h).2.1⟩
  rw [chooseService_eq, emergency, waits]
  rfl

theorem chooseService_emergency {sv : Priority → Bool} {l r : List ClaimEntry} {f : ClaimEntry} (ready : f.state = .ready)
    (serves : sv f.priority = true) (emergency : f.priority = .emergency)
    (first : ∀ x ∈ l, ¬ (x.state = .ready ∧ sv x.priority = true ∧ x.priority = .emergency)) (hold : Priority → Nat) :
    chooseService hold sv (l ++ f :: r) = serveWith hold sv f (l ++ f :: r) := by
  have found : (l ++ f :: r).find? (fun e => e.waitsService sv && e.priority == .emergency) = some f :=
    find_split r (fun x mem => Bool.eq_false_iff.mpr (mt (ClaimEntry.waitsEmergency_iff sv x).mp (first x mem)))
      ((ClaimEntry.waitsEmergency_iff sv f).mpr ⟨ready, serves, emergency⟩)
  rw [chooseService_eq, found]
  rfl

theorem chooseService_first {sv : Priority → Bool} {l r : List ClaimEntry} {f : ClaimEntry} (ready : f.state = .ready)
    (serves : sv f.priority = true)
    (calm : ∀ x ∈ l ++ f :: r, ¬ (x.state = .ready ∧ sv x.priority = true ∧ x.priority = .emergency))
    (first : ∀ x ∈ l, ¬ (x.state = .ready ∧ sv x.priority = true)) (hold : Priority → Nat) :
    chooseService hold sv (l ++ f :: r) = serveWith hold sv f (l ++ f :: r) := by
  have emergency : (l ++ f :: r).find? (fun e => e.waitsService sv && e.priority == .emergency) = none :=
    List.find?_eq_none.mpr fun x mem => mt (ClaimEntry.waitsEmergency_iff sv x).mp (calm x mem)
  have found : (l ++ f :: r).find? (fun e => e.waitsService sv) = some f :=
    find_split r (fun x mem => Bool.eq_false_iff.mpr (mt (ClaimEntry.waitsService_iff sv x).mp (first x mem)))
      ((ClaimEntry.waitsService_iff sv f).mpr ⟨ready, serves⟩)
  rw [chooseService_eq, emergency, found]
  rfl

/-- The condition on which a READY entry joins the service (R139; log 19). -/
theorem joins_iff (sv : Priority → Bool) (c : StageId) (em : Bool) (e : ClaimEntry) :
    (e.waitsService sv && e.stage == c && (e.priority == .emergency || !em)) = true ↔
      (e.state = .ready ∧ sv e.priority = true) ∧ e.stage = c ∧ (e.priority = .emergency ∨ em = false) := by
  rw [Bool.and_eq_true, Bool.and_eq_true, ClaimEntry.waitsService_iff, beq_iff_eq, Bool.or_eq_true, beq_iff_eq,
    Bool.not_eq_true', and_assoc]

theorem served_eq (m : Mode) (manual : Bool) : served m manual .emergency = (m == .running) ∧
    served m manual .transit = (m == .running && !manual) := by
  cases m <;> exact ⟨rfl, rfl⟩

/-! ### The service stage and the sequencer (R99, R101, R141) -/

theorem State.setService_same {s : State} {new : Option StageId} (same : new = s.seq.service) : s.setService new = s :=
  if_pos same

theorem State.setService_asserted {s : State} {new : Option StageId} {c : StageId} (some_ : new = some c)
    (other : new ≠ s.seq.service) :
    s.setService new = State.assertService { s with seq := { s.seq with service := new } } c := by
  unfold State.setService
  rw [if_neg other]
  subst some_
  rfl

theorem State.setService_ended {s : State} {new : Option StageId} (none_ : new = none) (other : s.seq.service ≠ none) :
    s.setService new = State.endService { s with seq := { s.seq with service := none } } := by
  subst none_
  unfold State.setService
  rw [if_neg (Ne.symm other)]

/-- The end of a service drops a held target, and leaves a coordinated sequencer SEEKING (R101). -/
theorem State.endService_eq (s : State) : s.endService = { s with seq := { s.seq with
    st := (match s.seq.st with
      | .idle => .idle
      | .dwell t => .dwell t
      | .change r => .change { r with replacement := none })
    step := if s.cycle.active = 0 then s.seq.step else .seeking } } := rfl

theorem State.assertService_idle {s : State} (idle : s.seq.st = .idle) (c : StageId) : s.assertService c = s := by
  unfold State.assertService; rw [idle]

theorem State.assertService_dwell {s : State} {t : StageId} (dwells : s.seq.st = .dwell t) (c : StageId) :
    s.assertService c = if t = c then s else s.beginChange t c := by
  unfold State.assertService; rw [dwells]

theorem State.assertService_change {s : State} {r : Change} (changes : s.seq.st = .change r) (c : StageId) :
    s.assertService c = if r.committed then
        s.withSeq (.change { r with replacement := if r.toStage = c then none else some c })
      else if r.toStage = c then s
      else s.replaceChange r c := by
  unfold State.assertService; rw [changes]

/-- LEAD and HOLD are the plan's seconds (R129). -/
theorem State.claimTicks_none {s : State} (planless : s.plan = none) (n : RouteId) :
    s.leadTicks n = 0 ∧ s.holdTicks .emergency = 0 ∧ s.holdTicks .transit = 0 := by
  unfold State.leadTicks State.holdTicks
  rw [planless]
  exact ⟨rfl, rfl, rfl⟩

theorem State.claimTicks_some {s : State} {p : Plan} (planned : s.plan = some p) (n : RouteId) :
    s.leadTicks n = 62500 * p.lead.nth n ∧ s.holdTicks .emergency = 62500 * p.holdEmergency ∧
      s.holdTicks .transit = 62500 * p.holdTransit := by
  unfold State.leadTicks State.holdTicks
  rw [planned]
  exact ⟨rfl, rfl, rfl⟩

/-- One arbitration, by its steps (R137 to R139). -/
theorem arbitrateTable_eq (hold : Priority → Nat) (sv : Priority → Bool) (t : List ClaimEntry) : arbitrateTable hold sv t =
    (let back := t.map fun x => if x.state = .serving ∧ sv x.priority = false then x.toReady else x
     match servingStage back with
     | none => chooseService hold sv back
     | some c =>
       let joined := joinService hold sv c (emergencyService back) back
       if emergencyService joined = false ∧
           joined.any (fun x => x.state == .ready && sv x.priority && x.priority == .emergency) = true
       then chooseService hold sv (joined.map ClaimEntry.toReady) else joined) := by
  simp only [arbitrateTable, Bool.and_eq_true, beq_iff_eq, Bool.not_eq_true']
  rfl

/-- Settles O39: the commands by the split of the table, arbitration by its steps, the sequencer by its state. -/
theorem claimReadinessAndArrival : Obligations.ClaimReadinessAndArrival := by
  refine ⟨fun s l r e table first => ⟨fun waits near => next_of_rests ?ready, fun zero fresh waits => next_of_rests ?waiting,
    fun zero fresh unwaiting unserved => next_of_rests ?other, fun zero fresh serves => next_of_rests ?serving⟩,
    fun s => rfl, fun s new => ⟨State.setService_same, fun c => State.setService_asserted, fun none_ other => ?ends⟩,
    fun s c => ⟨fun idle => State.assertService_idle idle c, fun t dwells => State.assertService_dwell dwells c,
      fun r changes => ⟨fun open_ => ?uncommitted, fun committed => ?committed⟩⟩,
    fun s n => ⟨fun planless => State.claimTicks_none planless n, fun p planned => State.claimTicks_some planned n⟩,
    served_eq, fun hold sv t e => ⟨rfl, rfl, arbitrateTable_eq hold sv t⟩,
    fun hold sv t => ⟨fun idle => chooseService_idle idle hold, fun l f r split ready serves first => ?choose⟩,
    fun hold sv c em e t => ⟨rfl, fun ready serves stage priority => ?joins, fun stays_ => ?stands⟩⟩
  case ready => exact State.claimReady_due table first ((s.leadReached_iff e).mpr ⟨waits, near⟩)
  case waiting =>
    rw [State.claimArrived_due table first (e.arrivalDue_iff.mpr ⟨zero, fresh⟩), if_pos waits,
      ClaimEntry.arrive_waiting waits]
  case other =>
    rw [State.claimArrived_due table first (e.arrivalDue_iff.mpr ⟨zero, fresh⟩), if_neg unwaiting,
      ClaimEntry.arrive_other unwaiting unserved]
  case serving =>
    rw [State.claimArrived_due table first (e.arrivalDue_iff.mpr ⟨zero, fresh⟩), if_neg (by rw [serves]; nofun),
      ClaimEntry.arrive_serving serves]
  case ends => exact (State.setService_ended none_ other).trans (State.endService_eq _)
  case uncommitted => rw [State.assertService_change changes, if_neg (by rw [open_]; nofun)]
  case committed =>
    rw [State.assertService_change changes, if_pos committed]
    rfl
  case choose =>
    subst split
    rcases first with ⟨emergency, none_⟩ | ⟨calm, none_⟩
    · exact chooseService_emergency ready serves emergency none_ hold
    · exact chooseService_first ready serves calm none_ hold
  case joins => exact if_pos ((joins_iff sv c em e).mpr ⟨⟨ready, serves⟩, stage, priority⟩)
  case stands =>
    refine if_neg (mt (joins_iff sv c em e).mp ?_)
    rintro ⟨⟨ready, serves⟩, stage, priority⟩
    rcases stays_ with h | h | h | ⟨transit, em_⟩
    · exact h ready
    · rw [h] at serves; cases serves
    · exact h stage
    · rcases priority with emergency | calm
      · rw [transit] at emergency; cases emergency
      · rw [em_] at calm; cases calm

end Sys2Proof.Machine
end

section
/-! PROOFS. The ends of claims, and the claim unit at a frame boundary (R133, R140, R143 to R147). -/

namespace Sys2Proof.Machine

/-! ### The commands of one entry -/

theorem State.holdEnd_due {s : State} {l r : List ClaimEntry} {e : ClaimEntry} (table : s.claims.table = l ++ e :: r)
    (first : ∀ x ∈ l, ¬ (x.origin = e.origin ∧ x.serial = e.serial)) (due : e.holdDue = true) :
    s.holdEnd e.origin e.serial = State.react (State.arbitrate { s with claims := { s.claims with
      table := l ++ { e with state := .cleared, hold := none, clearedOrder := some s.claims.place } :: r
      clearPlace := some s.claims.place } }) := by
  unfold State.holdEnd
  rw [State.findClaim_split table first]
  dsimp only
  rw [if_pos due, State.clearFirst_split table (fun x mem => ClaimEntry.is_false (first x mem)) e.is_self]

theorem State.claimLifetimeEnd_due {s : State} {l r : List ClaimEntry} {e : ClaimEntry}
    (table : s.claims.table = l ++ e :: r) (first : ∀ x ∈ l, ¬ (x.origin = e.origin ∧ x.serial = e.serial))
    (due : e.lifeDue = true) : s.claimLifetimeEnd e.origin e.serial =
      if e.state = .serving then (s.withClaimTable (l ++ e.expire :: r)).arbitrate.react
      else s.withClaimTable (l ++ e.expire :: r) := by
  unfold State.claimLifetimeEnd
  rw [State.findClaim_split table first]
  dsimp only
  rw [if_pos due, State.updClaim_split _ table first]

theorem State.withdrawalDetected_due {s : State} {p : Plan} {l r : List ClaimEntry} {e : ClaimEntry}
    (planned : s.plan = some p) (table : s.claims.table = l ++ e :: r)
    (first : ∀ x ∈ l, ¬ (x.origin = e.origin ∧ x.serial = e.serial)) (gone : s.withdrawalMiss p e = none) :
    s.withdrawalDetected e.origin e.serial =
      if e.state = .serving then (s.withClaimTable (l ++ r)).arbitrate.react else s.withClaimTable (l ++ r) := by
  unfold State.withdrawalDetected
  rw [planned, State.findClaim_split table first]
  dsimp only
  rw [State.withdrawalDue, gone, table, eraseP_split r (fun x mem => ClaimEntry.is_false (first x mem)) e.is_self]
  rfl

/-- The third record without the claim (R144). -/
theorem State.withdrawalMiss_third {s : State} {p : Plan} {e : ClaimEntry} {r : Record} (peer : e.origin ≠ p.station)
    (present : s.presentRecord e.origin = some r) (fresh : (s.peers.nth e.origin).fresh = true)
    (unlisted : ∀ c ∈ r.claims, c.serial.toFin ≠ e.serial) (third : 2 ≤ e.miss) : s.withdrawalMiss p e = none := by
  have absent : r.claims? e.serial ≠ true := fun h => by
    obtain ⟨c, mem, same⟩ := (r.claims?_iff _).mp h
    exact unlisted c mem same
  rw [State.withdrawalMiss_judged peer present fresh, if_neg absent, if_neg (Nat.not_lt.mpr third)]

/-! ### The steps of a boundary (R147) -/

theorem servingLost_iff (before after : List ClaimEntry) : servingLost before after = true ↔
    ∃ e ∈ before, e.state = .serving ∧
      ∀ x ∈ after, ¬ (x.state = .serving ∧ x.origin = e.origin ∧ x.serial = e.serial) := by
  have id_mem (t : List ClaimEntry) (i : StationId × Fin 16) :
      i ∈ servingIds t ↔ ∃ x ∈ t, x.state = .serving ∧ x.origin = i.1 ∧ x.serial = i.2 := by
    simp only [servingIds, List.mem_map, List.mem_filter, beq_iff_eq, Prod.ext_iff, and_assoc]
  simp only [servingLost, List.any_eq_true, Bool.not_eq_true', List.contains_eq_mem, decide_eq_false_iff_not, id_mem]
  constructor
  · rintro ⟨i, ⟨e, mem, serves, origin, serial⟩, lost⟩
    exact ⟨e, mem, serves, fun x mem' here => lost ⟨x, mem', here.1, here.2.1.trans origin, here.2.2.trans serial⟩⟩
  · rintro ⟨e, mem, serves, lost⟩
    exact ⟨(e.origin, e.serial), ⟨e, mem, serves, rfl, rfl⟩, fun ⟨x, mem', here⟩ => lost x mem' here⟩

theorem entersReady_iff (t u : List ClaimEntry) :
    entersReady t u = true ↔ u ≠ t ∧ ∃ e, u.getLast? = some e ∧ e.state = .ready := by
  rw [entersReady, Bool.and_eq_true, Bool.not_eq_true', beq_eq_false_iff_ne, Option.any_eq_true]
  simp only [beq_iff_eq]

/-- One of the offers of a list, made one after another, enters an entry in READY. -/
theorem readyEntered_iff {α : Type} (f : State → α → State) (l : List α) (s : State) : readyEntered f s l = true ↔
    ∃ l1 a l2, l = l1 ++ a :: l2 ∧
      entersReady (l1.foldl f s).claims.table (f (l1.foldl f s) a).claims.table = true := by
  induction l generalizing s with
  | nil =>
    refine iff_of_false nofun ?_
    rintro ⟨l1, a, l2, split, _⟩
    exact absurd split (by simp)
  | cons b l ih =>
    rw [readyEntered, Bool.or_eq_true, ih]
    constructor
    · rintro (here | ⟨l1, a, l2, rfl, later⟩)
      · exact ⟨[], b, l, rfl, here⟩
      · exact ⟨b :: l1, a, l2, rfl, later⟩
    · rintro ⟨l1, a, l2, split, enters⟩
      cases l1 with
      | nil => cases split; exact .inl enters
      | cons c l1 => cases split; exact .inr ⟨l1, a, l2, rfl, enters⟩

theorem State.originLoss_eq (s : State) (p : Plan) : s.originLoss p = s.withClaimTable (s.claims.table.filter fun e =>
    e.origin == p.station || (s.peers.nth e.origin).presence == .present) := by
  simp only [State.originLoss, Plan.isPeer, Bool.not_not]

theorem State.originWithdrawal_eq (s : State) (p : Plan) : s.originWithdrawal p = { s with claims := { s.claims with
    own := s.claims.own.filter fun o => !(s.withdraws p o)
    table := s.claims.table.filter fun e => !(e.origin == p.station &&
      s.claims.own.any fun o => s.withdraws p o && o.serial == e.serial) } } := by
  simp only [State.originWithdrawal, List.any_filter]

theorem State.offerPublished_eq (s : State) (p : Plan) (kc : StationId × ClaimField) : s.offerPublished p kc =
    if kc.1 = p.station then s else s.offerPeer p kc.1 kc.2 := by
  unfold State.offerPublished Plan.isPeer
  by_cases own : kc.1 = p.station
  · rw [if_pos own, if_neg (by rw [beq_iff_eq.mpr own]; nofun)]
  · rw [if_neg own, if_pos (by rw [beq_eq_false_iff_ne.mpr own]; rfl)]

theorem State.published_eq (s : State) : s.published = (List.finRange 16).flatMap fun k =>
    ((s.presentRecord k).map fun rec_ => rec_.claims.map fun c => (k, c)).getD [] := by
  unfold State.published
  congr 1
  funext k
  cases s.presentRecord k <;> rfl

theorem State.reportsCleared_iff (s : State) (p : Plan) (o : OwnClaim) (k : StationId) : s.reportsCleared p o k = true ↔
    ∃ rec_, s.presentRecord k = some rec_ ∧ ∃ q ∈ rec_.reports,
      q.origin.toFin = p.station ∧ q.serial.toFin = o.serial ∧ q.state = 2 := by
  unfold State.reportsCleared
  cases s.presentRecord k with
  | none => simp
  | some r => simp [List.any_eq_true, and_assoc]

theorem State.waitsFor_iff (s : State) (p : Plan) (n : RouteId) (k : StationId) : s.waitsFor p n k = true ↔
    ∃ rec_ there here, s.presentRecord k = some rec_ ∧ rec_.mode = 4 ∧ p.distOf n k = some there ∧
      p.distOf n p.station = some here ∧ here ≤ there := by
  unfold State.waitsFor
  cases s.presentRecord k with
  | none => simp
  | some r =>
    cases p.distOf n k with
    | none => simp
    | some there => cases p.distOf n p.station <;> simp

theorem State.withdraws_iff (s : State) (p : Plan) (o : OwnClaim) : s.withdraws p o = true ↔ o.life = 0 ∨
    (∃ e, s.findClaim p.station o.serial = some e ∧ e.state = .cleared) ∧
      ∀ j, s.waitsFor p o.route j = true → BitSet.has o.clearedBy j = true := by
  simp only [State.withdraws, Bool.or_eq_true, Bool.and_eq_true, beq_iff_eq, Option.any_eq_true, allFin_iff,
    Bool.not_eq_true', ← Bool.not_eq_true, Decidable.imp_iff_not_or]

/-! ### A peer's claim (R133) -/

/-- The entry that a peer's claim takes where its route passes this station at or past the origin's distance. -/
theorem Plan.entryFor_some {p : Plan} {origin : StationId} {c : ClaimField} {here there : Nat} {stage : StageId}
    (own : p.distOf c.route.toFin p.station = some here) (at_ : p.distOf c.route.toFin origin = some there)
    (passes : there ≤ here) (local_ : (p.routes.nth c.route.toFin).stage = some stage) :
    p.entryFor origin c = some
      { origin := origin, serial := c.serial.toFin, route := c.route.toFin
        priority := if c.emergency then .emergency else .transit, stage := stage
        remaining := 62500 * (here - there), arrived := here == there
        life := 62500 * p.lifeOf (if c.emergency then .emergency else .transit), hold := none
        state := if here - there ≤ p.lead.nth c.route.toFin then .ready else .waiting
        clearedOrder := none, miss := 0 } := by
  have arrived : (second * (here - there) == 0) = (here == there) := by
    unfold second
    rw [Bool.eq_iff_iff, beq_iff_eq, beq_iff_eq]
    omega
  have lead : second * (here - there) ≤ second * p.lead.nth c.route.toFin ↔ here - there ≤ p.lead.nth c.route.toFin :=
    Nat.mul_le_mul_left_iff (by decide)
  unfold Plan.entryFor
  dsimp only
  rw [own, at_, local_]
  dsimp only
  simp only [if_pos passes, arrived, lead]
  rfl

theorem State.offerPeer_entered {s : State} {p : Plan} {origin : StationId} {c : ClaimField} {e : ClaimEntry}
    (entry : p.entryFor origin c = some e) (free : (s.findClaim e.origin e.serial).isSome = false) :
    s.offerPeer p origin c = s.offer e := by
  unfold State.offerPeer
  rw [entry]
  exact if_neg (by rw [free]; nofun)

/-- A claim whose route does not pass this station at or past the origin's distance takes no entry (R133). -/
theorem Plan.entryFor_none {p : Plan} {origin : StationId} {c : ClaimField}
    (past : p.distOf c.route.toFin p.station = none ∨ p.distOf c.route.toFin origin = none ∨
      (p.routes.nth c.route.toFin).stage = none ∨
      ∃ here there, p.distOf c.route.toFin p.station = some here ∧ p.distOf c.route.toFin origin = some there ∧
        here < there) : p.entryFor origin c = none := by
  unfold Plan.entryFor
  dsimp only
  split
  next own at_ stage hereIs thereIs local_ =>
    refine if_neg fun passes => ?_
    rcases past with h | h | h | ⟨here, there, h1, h2, less⟩
    · rw [h] at hereIs; cases hereIs
    · rw [h] at thereIs; cases thereIs
    · rw [h] at local_; cases local_
    · rw [h1] at hereIs
      rw [h2] at thereIs
      cases hereIs
      cases thereIs
      omega
  next => rfl

theorem Plan.entryFor_identity {p : Plan} {origin : StationId} {c : ClaimField} {e : ClaimEntry}
    (entry : p.entryFor origin c = some e) : e.origin = origin ∧ e.serial = c.serial.toFin := by
  unfold Plan.entryFor at entry
  dsimp only at entry
  split at entry
  · split at entry
    · cases entry; exact ⟨rfl, rfl⟩
    · cases entry
  · cases entry

theorem State.offerPeer_held {s : State} {p : Plan} {origin : StationId} {c : ClaimField}
    (held : (s.findClaim origin c.serial.toFin).isSome = true) : s.offerPeer p origin c = s := by
  unfold State.offerPeer
  split
  next => rfl
  next e entry =>
    obtain ⟨hasOrigin, hasSerial⟩ := Plan.entryFor_identity entry
    rw [hasOrigin, hasSerial, if_pos held]

theorem State.offerPeer_none {s : State} {p : Plan} {origin : StationId} {c : ClaimField}
    (none_ : p.entryFor origin c = none) : s.offerPeer p origin c = s := by
  unfold State.offerPeer; rw [none_]

/-- The offers of a boundary that enter an entry in READY, peers' and own (R147). -/
theorem State.entryReady_iff (s : State) (p : Plan) : s.entryReady p = true ↔
    (∃ l kc r t u, s.published = l ++ kc :: r ∧ t = l.foldl (State.offerPublished p) s ∧
      u = t.offerPublished p kc ∧ u.claims.table ≠ t.claims.table ∧
      ∃ e, u.claims.table.getLast? = some e ∧ e.state = .ready) ∨
    (∃ l o r t u, (s.claims.own.filter fun o => (s.findClaim p.station o.serial).isNone) = l ++ o :: r ∧
      t = l.foldl (fun v o => v.offerOwn p o) (s.peerEntry p) ∧ u = t.offerOwn p o ∧
      u.claims.table ≠ t.claims.table ∧ ∃ e, u.claims.table.getLast? = some e ∧ e.state = .ready) := by
  rw [State.entryReady, Bool.or_eq_true, readyEntered_iff, readyEntered_iff]
  simp only [entersReady_iff]
  refine or_congr ⟨?_, ?_⟩ ⟨?_, ?_⟩
  · exact fun ⟨l, kc, r, split, enters⟩ => ⟨l, kc, r, _, _, split, rfl, rfl, enters⟩
  · rintro ⟨l, kc, r, _, _, split, rfl, rfl, enters⟩
    exact ⟨l, kc, r, split, enters⟩
  · exact fun ⟨l, o, r, split, enters⟩ => ⟨l, o, r, _, _, split, rfl, rfl, enters⟩
  · rintro ⟨l, o, r, _, _, split, rfl, rfl, enters⟩
    exact ⟨l, o, r, split, enters⟩

/-- Settles O40: the commands by the split of the table, a boundary by its steps in order. -/
theorem claimsEnd : Obligations.ClaimsEnd := by
  refine ⟨fun s l r e table first => ⟨fun serves zero => next_of_rests ?hold, fun zero waits => next_of_rests ?expires,
    fun zero serves => next_of_rests ?expiresServing, fun p rec_ planned peer present fresh unlisted third => ?withdrawn⟩,
    fun c => ⟨fun place held => Claims.place_of held, fun none_ e mem n order => Claims.place_above none_ mem order⟩,
    fun s p => ⟨_, _, rfl, rfl, rfl⟩, servingLost_iff, State.entryReady_iff,
    fun s p => ⟨s.originLoss_eq p, rfl, rfl, s.originWithdrawal_eq p, rfl, rfl, s.offerPublished_eq p, s.published_eq⟩,
    fun s p e => ⟨State.withdrawalMiss_unjudged, fun rec_ peer present fresh => ⟨fun listed => ?listed,
      fun unlisted => ?unlisted⟩⟩,
    fun s p o k => ⟨s.reportsCleared_iff p o k, s.waitsFor_iff p o.route k, s.withdraws_iff p o⟩,
    fun s p origin c n q route priority => ?offer⟩
  case hold => exact State.holdEnd_due table first (e.holdDue_iff.mpr ⟨serves, zero⟩)
  case expires =>
    have due : e.state ≠ .serving ∧ e.state ≠ .cleared ∧ e.state ≠ .expired := by
      rcases waits with h | h <;> rw [h] <;> exact ⟨nofun, nofun, nofun⟩
    obtain ⟨unserved, alive⟩ := due
    rw [State.claimLifetimeEnd_due table first (e.lifeDue_iff.mpr ⟨zero, alive⟩), if_neg unserved]
    rfl
  case expiresServing =>
    have alive : e.state ≠ .cleared ∧ e.state ≠ .expired := by rw [serves]; exact ⟨nofun, nofun⟩
    rw [State.claimLifetimeEnd_due table first (e.lifeDue_iff.mpr ⟨zero, alive⟩), if_pos serves]
    rfl
  case withdrawn =>
    have gone := State.withdrawalMiss_third peer present fresh unlisted (Nat.le_of_eq third.symm)
    have taken := State.withdrawalDetected_due planned table first gone
    exact ⟨fun unserved => next_of_rests (taken.trans (if_neg unserved)),
      fun serves => next_of_rests (taken.trans (if_pos serves))⟩
  case listed =>
    rw [State.withdrawalMiss_judged peer present fresh, if_pos ((rec_.claims?_iff _).mpr listed)]
  case unlisted =>
    rw [State.withdrawalMiss_judged peer present fresh, if_neg fun h => ?_]
    obtain ⟨c, mem, same⟩ := (rec_.claims?_iff _).mp h
    exact unlisted c mem same
  case offer =>
    subst route priority
    refine ⟨fun here there stage own at_ passes local_ free =>
      State.offerPeer_entered (Plan.entryFor_some own at_ passes local_) (State.findClaim_isNone.mpr free), fun past => ?_⟩
    rcases past with h | h | h | h | held
    · exact State.offerPeer_none (Plan.entryFor_none (.inl h))
    · exact State.offerPeer_none (Plan.entryFor_none (.inr (.inl h)))
    · exact State.offerPeer_none (Plan.entryFor_none (.inr (.inr (.inl h))))
    · exact State.offerPeer_none (Plan.entryFor_none (.inr (.inr (.inr h))))
    · exact State.offerPeer_held (State.findClaim_isSome.mpr held)

end Sys2Proof.Machine
end

section
/-! PROOFS. Senses, settling, the flash phase and the commands of the lamp channels (R151 to R161). -/

namespace Sys2Proof.Machine

/-! ### One channel -/

theorem Chan.takeCommand_same {phase : Bool} {cmd : Command} {c : Chan} (same : cmd = c.command) :
    c.takeCommand phase cmd = c := if_pos same

theorem Chan.takeCommand_new {phase : Bool} {cmd : Command} {c : Chan} (new : cmd ≠ c.command) :
    c.takeCommand phase cmd = { c with
      command := cmd, output := cmd.expected phase, unTime := 0, loTime := 0, unLive := false, loLive := false
      settle := some 0 } := if_neg new

theorem Chan.takeCommand_command (phase : Bool) (cmd : Command) (c : Chan) :
    (c.takeCommand phase cmd).command = cmd := by
  by_cases same : cmd = c.command
  · rw [Chan.takeCommand_same same, same]
  · rw [Chan.takeCommand_new same]

theorem Chan.agree_settle (phase : Bool) (c : Chan) : (c.agree phase).settle = c.settle := (Chan.agree_law phase c).2.2.2

theorem Chan.agree_sensed (phase : Bool) (c : Chan) : (c.agree phase).sensed = c.sensed := by
  unfold Chan.sensed
  rw [(Chan.agree_law phase c).1]

theorem Chan.phaseChange_command (phase : Bool) (c : Chan) : (c.phaseChange phase).command = c.command := by
  unfold Chan.phaseChange
  split <;> rfl

theorem Chan.phaseChange_flash {c : Chan} (phase : Bool) (flash : c.command = .flash) :
    c.phaseChange phase = { c with output := phase, settle := some 0 } := if_pos flash

theorem Chan.phaseChange_steady {c : Chan} (phase : Bool) (steady : c.command ≠ .flash) :
    c.phaseChange phase = c := if_neg steady

/-! ### A channel that changes, with its agreement and the checks (R155, R160) -/

theorem State.updChan_senseSync_nth (s : State) (c : ChanId) (f : Chan → Chan) :
    ((s.updChan c f).senseSync c).lamps.channels.nth c = (f (s.lamps.channels.nth c)).agree s.lamps.phase := by
  rw [State.senseSync_nth, if_pos rfl]
  show Chan.agree _ ((s.lamps.channels.upd c f).nth c) = _
  rw [Table.nth_upd_self]
  rfl

theorem State.updChan_senseSync_ne (s : State) (c e : ChanId) (f : Chan → Chan) (other : e ≠ c) :
    ((s.updChan c f).senseSync c).lamps.channels.nth e = s.lamps.channels.nth e := by
  rw [State.senseSync_nth, if_neg (Ne.symm other)]
  exact Table.nth_upd_ne _ _ (Ne.symm other)

theorem State.updChan_senseSync_sensed (s : State) (c : ChanId) (f : Chan → Chan) :
    ((s.updChan c f).senseSync c).sensed c = (f (s.lamps.channels.nth c)).sensed := by
  unfold State.sensed
  rw [State.updChan_senseSync_nth, Chan.agree_sensed]

theorem State.senseSync_monitorSync (s : State) (c : ChanId) : (s.senseSync c).monitorSync = s.senseSync c :=
  State.monitorSync_idem _

theorem State.senseChange_dark {s : State} (dark : s.ctrl.mode = .dark) (c : ChanId) (level : Bool) (held : Nat) :
    s.senseChange c level held = s.updChan c fun ch => { ch with sense := { ch.sense with raw := level } } := if_pos dark

/-- A sense change that no running self-check fails on (R154, R165). -/
theorem State.senseChange_passes {s : State} (live : s.ctrl.mode ≠ .dark) {c : ChanId} {level : Bool} {held : Nat}
    (passes : s.selfWatching = false ∨ s.sensed c = true ∨
      ((s.sampleSense c level held).senseSync c).sensed c = false) :
    s.senseChange c level held = (s.sampleSense c level held).senseSync c := by
  unfold State.senseChange
  dsimp only
  rw [if_neg live, show ((s.sampleSense c level held).senseSync c).selfWatching = s.selfWatching from rfl, if_neg]
  rcases passes with h | h | h <;> simp [h]

theorem State.sampleSense_sensed_held (s : State) (c : ChanId) (level : Bool) {held : Nat} (long : 625 ≤ held) :
    ((s.sampleSense c level held).senseSync c).sensed c = level := by
  unfold State.sampleSense
  rw [State.updChan_senseSync_sensed]
  show ((s.lamps.channels.nth c).sense.sample 625 level held).asserted = level
  rw [Filter.sample_held _ _ _ _ long]
  cases level <;> rfl

theorem State.sampleSense_sensed_short (s : State) (c : ChanId) (level : Bool) {held : Nat} (short : held < 625) :
    ((s.sampleSense c level held).senseSync c).sensed c = s.sensed c := by
  unfold State.sampleSense
  rw [State.updChan_senseSync_sensed]
  show ((s.lamps.channels.nth c).sense.sample 625 level held).asserted = _
  rw [Filter.sample_short _ _ _ _ short]
  rfl

theorem State.sampleSense_senseSync_held (s : State) (c : ChanId) (level : Bool) {held : Nat} (long : 625 ≤ held) :
    ((s.sampleSense c level held).senseSync c).lamps.channels.nth c = Chan.agree s.lamps.phase
      { s.lamps.channels.nth c with sense := { raw := level, time := 625, level := some level } } := by
  unfold State.sampleSense
  rw [State.updChan_senseSync_nth]
  show Chan.agree _ { s.lamps.channels.nth c with sense := (s.lamps.channels.nth c).sense.sample 625 level held } = _
  rw [Filter.sample_held _ _ _ _ long]

theorem State.sampleSense_senseSync_short (s : State) (c : ChanId) (level : Bool) {held : Nat} (short : held < 625) :
    ((s.sampleSense c level held).senseSync c).lamps.channels.nth c = Chan.agree s.lamps.phase
      { s.lamps.channels.nth c with sense := { (s.lamps.channels.nth c).sense with raw := level, time := held } } := by
  unfold State.sampleSense
  rw [State.updChan_senseSync_nth]
  show Chan.agree _ { s.lamps.channels.nth c with sense := (s.lamps.channels.nth c).sense.sample 625 level held } = _
  rw [Filter.sample_short _ _ _ _ short]

theorem State.settleEnd_due {s : State} {c : ChanId} (due : (s.lamps.channels.nth c).settleDue = true) :
    s.settleEnd c = (s.updChan c fun ch => { ch with settle := none }).senseSync c := if_pos due

theorem State.flashPhaseChange_due {s : State} (due : s.lamps.flashCount = 4) : s.flashPhaseChange = s.flashPhase :=
  if_pos (by rw [due]; rfl)

theorem State.flashPhase_nth (s : State) (c : ChanId) :
    s.flashPhase.lamps.channels.nth c = (s.lamps.channels.nth c).phaseChange (!s.lamps.phase) := Table.nth_tab _ c

/-! ### The commands of the channels (R62, R151, R152) -/

theorem State.commandOf_chanOf (s : State) (g : GroupId) (k : Fin 3) :
    s.commandOf (chanOf g k) = s.groupCommand g k := by
  have low : (chanOf g k).val < 48 := by unfold chanOf; dsimp only; omega
  unfold State.commandOf
  rw [dif_pos low]
  congr 1 <;> apply Fin.ext <;> simp only [chanOf] <;> omega

theorem State.commandOf_chanOfSign (s : State) (k : SignId) : s.commandOf (chanOfSign k) = s.signCommand k := by
  have high : ¬ (chanOfSign k).val < 48 := by unfold chanOfSign; dsimp only; omega
  unfold State.commandOf
  rw [dif_neg high]
  congr 1
  apply Fin.ext
  simp only [chanOfSign]
  omega

theorem State.groupCommand_planless {s : State} (none : s.plan = none) (g : GroupId) (k : Fin 3) :
    s.groupCommand g k = if (s.groups.nth g).state = .flashing ∧ k = 1 then .flash else .off := by
  unfold State.groupCommand
  rw [none]

theorem State.groupCommand_unused {s : State} {p : Plan} (planned : s.plan = some p) {g : GroupId}
    (kind : (p.groups.nth g).kind = .unused) (k : Fin 3) : s.groupCommand g k = .off := by
  unfold State.groupCommand
  rw [planned]
  dsimp only
  rw [kind]

theorem State.groupCommand_vehicle {s : State} {p : Plan} (planned : s.plan = some p) {g : GroupId}
    (kind : (p.groups.nth g).kind = .vehicle) (k : Fin 3) :
    s.groupCommand g k = vehicleCommand (p.groups.nth g).aspect (s.groups.nth g).state k := by
  unfold State.groupCommand
  rw [planned]
  dsimp only
  rw [kind]

theorem State.groupCommand_walk {s : State} {p : Plan} (planned : s.plan = some p) {g : GroupId}
    (kind : (p.groups.nth g).kind = .walk) (k : Fin 3) :
    s.groupCommand g k = walkCommand (p.groups.nth g).aspect (s.groups.nth g).state k := by
  unfold State.groupCommand
  rw [planned]
  dsimp only
  rw [kind]

theorem State.signCommand_off {s : State} (off : s.plan = none ∨ s.ctrl.mode = .check) (k : SignId) :
    s.signCommand k = .off := by
  unfold State.signCommand
  rcases off with h | h
  · rw [h]
  · cases s.plan with
    | none => rfl
    | some p => simp [h]

theorem State.signCommand_source {s : State} {p : Plan} (planned : s.plan = some p) (live : s.ctrl.mode ≠ .check)
    (k : SignId) : s.signCommand k = if s.signTrue (p.signs.nth k) = true then .on else .off := by
  unfold State.signCommand
  rw [planned]
  simp [live]

theorem Mode.isFlash_eq (m : Mode) : m.isFlash = (m == .startFlash || m == .panelFlash || m == .faultFlash) := by
  cases m <;> rfl

theorem GState.rightOfWay_eq (g : GState) : g.rightOfWay = (g == .prepare || g == .green || g == .clearing) := by
  cases g <;> rfl

theorem State.lampSync_nth (s : State) (c : ChanId) : s.lampSync.lamps.channels.nth c =
    ((s.lamps.channels.nth c).takeCommand s.lamps.phase (s.commandOf c)).agree s.lamps.phase := Table.nth_tab _ c

theorem State.lampSync_command (s : State) (c : ChanId) :
    (s.lampSync.lamps.channels.nth c).command = s.lampSync.commandOf c := by
  rw [State.lampSync_nth, (Chan.agree_law _ _).2.1, Chan.takeCommand_command]
  rfl

theorem State.redWatched_iff (s : State) (g : GroupId) : s.redWatched g = true ↔
    (s.ctrl.mode = .allRed ∨ s.ctrl.mode = .running) ∧ (s.groupPlan g).kind = .vehicle ∧ (s.groups.nth g).state = .red := by
  have street : s.ctrl.mode.isStreet = true ↔ s.ctrl.mode = .allRed ∨ s.ctrl.mode = .running := by
    cases s.ctrl.mode <;> simp [Mode.isStreet]
  simp only [State.redWatched, Bool.and_eq_true, beq_iff_eq, street, and_assoc]

theorem State.redTimes_iff (s : State) (g : GroupId) :
    (s.redWatched g && !((s.lamps.channels.nth (chanOf g 0)).judged && s.sensed (chanOf g 0))) = true ↔
      (s.ctrl.mode = .allRed ∨ s.ctrl.mode = .running) ∧ (s.groupPlan g).kind = .vehicle ∧ (s.groups.nth g).state = .red ∧
        ¬ ((s.lamps.channels.nth (chanOf g 0)).settle = none ∧ s.sensed (chanOf g 0) = true) := by
  simp only [Bool.and_eq_true, State.redWatched_iff, Bool.not_eq_true', Chan.judged,
    Option.isNone_iff_eq_none, and_assoc, Classical.not_and_iff_not_or_not, ← Bool.not_eq_true]

/-! ### O43 -/

/-- What a sense change and a settle end leave alone, and the agreement and checks after it (R154, R155). -/
theorem State.updChan_senseSync_frame (s : State) (c : ChanId) (f : Chan → Chan) :
    ((s.updChan c f).senseSync c).monitorSync = (s.updChan c f).senseSync c ∧
    (∀ e, e ≠ c → ((s.updChan c f).senseSync c).lamps.channels.nth e = s.lamps.channels.nth e) :=
  ⟨State.senseSync_monitorSync _ c, fun e other => State.updChan_senseSync_ne s c e f other⟩

theorem State.flashPhase_channel (s : State) (e : ChanId) :
    (s.flashPhase.lamps.channels.nth e).command = (s.lamps.channels.nth e).command ∧
    ((s.lamps.channels.nth e).command = .flash → (s.flashPhase.lamps.channels.nth e).output = s.flashPhase.lamps.phase ∧
      (s.flashPhase.lamps.channels.nth e).settle = some 0) ∧
    ((s.lamps.channels.nth e).command ≠ .flash → s.flashPhase.lamps.channels.nth e = s.lamps.channels.nth e) := by
  rw [State.flashPhase_nth]
  refine ⟨Chan.phaseChange_command _ _, fun flash => ?_, fun steady => Chan.phaseChange_steady _ steady⟩
  rw [Chan.phaseChange_flash _ flash]
  exact ⟨rfl, rfl⟩

/-- Settles O43: each event by its lemma, each source of a command by its own. -/
theorem sensesSettlingAndPhase : Obligations.SensesSettlingAndPhase := by
  refine ⟨fun s c level held => ⟨?dark, ?long, ?short, ?settle, ?phase⟩, fun c phase => ⟨?expected, ?_, ?_, ?_⟩,
    fun s => ⟨State.monitorSync_idem _, rfl, s.monitorSync_pairs, fun g => ⟨s.monitorSync_greens g, ?reds⟩⟩,
    fun s c => State.lampSync_command _ c, fun s c => ⟨?pinDark, ?pinLive⟩, fun s => rfl, fun s c => ⟨?same, ?new⟩,
    ?groups, ?planless, fun s k => ⟨?signOff, ?signSource⟩⟩
  case dark =>
    intro dark
    exact congrArg Host.Outcome.next (State.senseChange_dark dark c level held)
  case long =>
    intro live long passes
    have eq := State.senseChange_passes live (c := c) (level := level) (held := held) (by
      rw [State.sampleSense_sensed_held s c level long]; exact passes.imp_right Or.symm)
    obtain ⟨checks, others⟩ := s.updChan_senseSync_frame c fun ch => { ch with sense := ch.sense.sample tSNF level held }
    exact ⟨_, congrArg Host.Outcome.next eq, State.sampleSense_sensed_held s c level long,
      State.sampleSense_senseSync_held s c level long, checks, others, rfl, rfl, rfl⟩
  case short =>
    intro live short
    have eq := State.senseChange_passes live (c := c) (level := level) (held := held) (by
      rw [State.sampleSense_sensed_short s c level short]; cases s.sensed c <;> simp)
    obtain ⟨checks, others⟩ := s.updChan_senseSync_frame c fun ch => { ch with sense := ch.sense.sample tSNF level held }
    exact ⟨_, congrArg Host.Outcome.next eq, State.sampleSense_sensed_short s c level short,
      State.sampleSense_senseSync_short s c level short, checks, others, rfl, rfl, rfl⟩
  case settle =>
    intro n settling due
    have eq := State.settleEnd_due ((Chan.settleDue_iff _).mpr ⟨n, settling, due⟩)
    obtain ⟨checks, others⟩ := s.updChan_senseSync_frame c fun ch => { ch with settle := none }
    have channel := s.updChan_senseSync_nth c fun ch => { ch with settle := none }
    exact ⟨_, congrArg Host.Outcome.next eq, by rw [channel, Chan.agree_settle], channel, checks,
      s.updChan_senseSync_sensed c _, others, rfl⟩
  case phase =>
    intro due
    exact ⟨_, congrArg Host.Outcome.next (State.flashPhaseChange_due due), rfl, rfl, s.flashPhase_channel,
      State.monitorSync_idem _, rfl⟩
  case expected => cases c.command <;> rfl
  · exact Chan.agree_off
  · exact Chan.agree_on
  · exact Chan.agree_keeps
  case reds =>
    rw [State.monitorSync_reds]
    simp only [State.redTimes_iff]
  case pinDark =>
    intro dark
    unfold State.switchPin State.switchedOn
    rw [dark]
    rfl
  case pinLive =>
    intro live
    simp [State.switchPin, State.switchedOn, activeLow, live]
  case same =>
    intro same
    rw [State.lampSync_nth, Chan.takeCommand_same same]
  case new =>
    intro new
    rw [State.lampSync_nth, Chan.takeCommand_new new, Chan.agree_keeps]
    · cases s.commandOf c <;> rfl
    · exact .inl nofun
  case groups =>
    rintro s p g a red amber green planned rfl rfl rfl rfl
    simp only [State.commandOf_chanOf]
    refine ⟨fun kind => ?unused, fun kind => ?vehicle, fun kind => ?walk⟩
    case unused => simp only [State.groupCommand_unused planned kind]
    case vehicle =>
      simp only [State.groupCommand_vehicle planned kind]
      cases (s.groups.nth g).state <;> rfl
    case walk =>
      simp only [State.groupCommand_walk planned kind]
      cases (s.groups.nth g).state <;> rfl
  case planless =>
    intro s g planless
    simp only [State.commandOf_chanOf, State.groupCommand_planless planless]
    simp
  case signOff =>
    intro off
    rw [State.commandOf_chanOfSign, State.signCommand_off off]
  case signSource =>
    intro p planned live
    rw [State.commandOf_chanOfSign, State.signCommand_source planned live]
    cases p.signs.nth k
    case groupNotRed g => simp only [State.signTrue, GState.rightOfWay_eq]
    case flashing => simp only [State.signTrue, Mode.isFlash_eq]
    all_goals rfl

end Sys2Proof.Machine
end

section
/-! PROOFS. The latching checks and the channel checks at their persistence times (R156 to R162, R177). -/

namespace Sys2Proof.Machine

/-! ### The conditions of the checks -/

theorem Mode.isStreet_iff (m : Mode) : m.isStreet = true ↔ m = .allRed ∨ m = .running := by
  cases m <;> simp [Mode.isStreet]

theorem Mode.isFlash_iff (m : Mode) : m.isFlash = true ↔ m = .startFlash ∨ m = .panelFlash ∨ m = .faultFlash := by
  cases m <;> simp [Mode.isFlash]

theorem State.lit_iff (s : State) (g : GroupId) : s.lit g = true ↔ s.sensed (chanOf g 2) = true ∨
    (s.groupPlan g).kind ≠ .walk ∧ s.sensed (chanOf g 1) = true := by
  simp only [State.lit, Bool.or_eq_true, Bool.and_eq_true, Bool.not_eq_true', beq_eq_false_iff_ne]

theorem State.pairLit_iff (s : State) (a b : GroupId) : s.pairLit a b = true ↔
    (s.ctrl.mode = .allRed ∨ s.ctrl.mode = .running) ∧ s.conflicts a b = true ∧
      ∀ g, g = a ∨ g = b → s.sensed (chanOf g 2) = true ∨
        (s.groupPlan g).kind ≠ .walk ∧ s.sensed (chanOf g 1) = true := by
  simp only [State.pairLit, Bool.and_eq_true, Mode.isStreet_iff, State.lit_iff, forall_eq_or_imp, forall_eq, and_assoc]

theorem State.greenLit_iff (s : State) (g : GroupId) : s.greenLit g = true ↔
    (s.ctrl.mode = .startFlash ∨ s.ctrl.mode = .panelFlash ∨ s.ctrl.mode = .faultFlash) ∧
      s.sensed (chanOf g 2) = true := by
  simp only [State.greenLit, Bool.and_eq_true, Mode.isFlash_iff]

theorem State.redDark_iff (s : State) (g : GroupId) : s.redDark g = true ↔
    (s.ctrl.mode = .allRed ∨ s.ctrl.mode = .running) ∧ (s.groupPlan g).kind = .vehicle ∧
      (s.groups.nth g).state = .red ∧ (s.lamps.channels.nth (chanOf g 0)).settle = none ∧
      s.sensed (chanOf g 0) = false := by
  simp only [State.redDark, Bool.and_eq_true, State.redWatched_iff, Chan.judged, Option.isNone_iff_eq_none,
    Bool.not_eq_true', and_assoc]

theorem State.mem_dueReds (s : State) (g : GroupId) : g ∈ s.dueReds ↔
    s.redDark g = true ∧ 31250 ≤ s.lamps.reds.nth g := by
  simp only [State.dueReds, List.mem_filter, List.mem_finRange, true_and, State.redDue_iff]

theorem State.mem_duePairs (s : State) (q : GroupId × GroupId) : q ∈ s.duePairs ↔
    q.1 < q.2 ∧ s.pairLit q.1 q.2 = true ∧ 12500 ≤ (s.lamps.pairs.nth q.1).nth q.2 := by
  rw [← State.conflictDue_iff]
  obtain ⟨a, b⟩ := q
  simp only [State.duePairs, List.mem_flatMap, List.mem_finRange, true_and, List.mem_map, List.mem_filter, Prod.mk.injEq]
  constructor
  · rintro ⟨_, _, due, rfl, rfl⟩
    exact due
  · exact fun due => ⟨a, b, due, rfl, rfl⟩

theorem State.dueReds_empty (s : State) : s.dueReds = [] ↔ ∀ g, s.redDark g = true → s.lamps.reds.nth g < 31250 := by
  simp only [List.eq_nil_iff_forall_not_mem, State.mem_dueReds, not_and, Nat.not_le]

theorem State.duePairs_empty (s : State) : s.duePairs = [] ↔
    ∀ x y, x < y → s.pairLit x y = true → (s.lamps.pairs.nth x).nth y < 12500 := by
  simp only [List.eq_nil_iff_forall_not_mem, State.mem_duePairs, not_and, Nat.not_le, Prod.forall]

/-! ### The fault event and the latches -/

theorem Reasons.isEmpty_iff (r : Reasons) : r.isEmpty = true ↔
    r = { conflict := false, redOut := false, selfCheck := false, plan := false } := by
  obtain ⟨conflict, redOut, selfCheck, plan⟩ := r
  simp only [Reasons.isEmpty, Bool.and_eq_true, Bool.not_eq_true', Reasons.mk.injEq, and_assoc]

theorem State.faultEvent_flash {s : State} (flash : s.ctrl.mode = .faultFlash) (r : Reason) :
    s.faultEvent r = { s with ctrl := { s.ctrl with reasons := s.ctrl.reasons.add r } } := if_pos flash

theorem State.faultEvent_enters {s : State} (live : s.ctrl.mode ≠ .faultFlash) (r : Reason) :
    s.faultEvent r = State.enterMode { s with ctrl := { s.ctrl with
      reasons := s.ctrl.reasons.add r
      firstFault := if s.ctrl.reasons = { conflict := false, redOut := false, selfCheck := false, plan := false }
        then some r else s.ctrl.firstFault } } .faultFlash := by
  unfold State.faultEvent State.addReason
  rw [if_neg live]
  simp only [Reasons.isEmpty_iff]

theorem State.firstWith_eq (s : State) (r : Reason) : s.firstWith r =
    if s.ctrl.mode ≠ .faultFlash ∧
      s.ctrl.reasons = { conflict := false, redOut := false, selfCheck := false, plan := false }
    then some r else s.ctrl.firstFault := by
  simp only [State.firstWith, Reasons.isEmpty_iff]

theorem State.latchConflict_eq (s : State) (c : ConflictCause) : s.latchConflict c =
    if s.lamps.conflict = none
    then State.faultEvent { s with lamps := { s.lamps with conflict := some c } } .conflict else s := by
  unfold State.latchConflict
  cases s.lamps.conflict <;> rfl

theorem State.latchRedOut_eq (s : State) (g : GroupId) : s.latchRedOut g =
    if s.lamps.redOut = none
    then State.faultEvent { s with lamps := { s.lamps with redOut := some g } } .redOut else s := by
  unfold State.latchRedOut
  cases s.lamps.redOut <;> rfl

theorem State.alsoRedOut_takes (s : State) {l : List GroupId} (some : l ≠ []) : ∃ g ∈ l,
    s.alsoRedOut l = State.latchRedOut { s with freeCount := s.freeCount + 1 } g := by
  cases l with
  | nil => exact absurd rfl some
  | cons g l => exact ⟨_, getD_mem _ (s.draw (l.length + 1)).1 g (List.mem_cons_self ..), rfl⟩

theorem State.alsoConflict_takes (s : State) {l : List (GroupId × GroupId)} (some : l ≠ []) : ∃ q ∈ l,
    s.alsoConflict l = State.latchConflict { s with freeCount := s.freeCount + 1 } (.conflict q.1 q.2) := by
  cases l with
  | nil => exact absurd rfl some
  | cons q l => exact ⟨_, getD_mem _ (s.draw (l.length + 1)).1 q (List.mem_cons_self ..), rfl⟩

/-! ### The latching events at their times -/

theorem State.conflictEvent_due {s : State} {a b : GroupId} (due : s.conflictDue a b = true)
    (clear : s.lamps.conflict = none) :
    s.conflictEvent a b = ((s.latchConflict (.conflict a b)).alsoRedOut s.dueReds).react :=
  if_pos (by rw [due, clear]; rfl)

theorem State.greenInFlash_due {s : State} {g : GroupId} (due : s.greenDue g = true)
    (clear : s.lamps.conflict = none) : s.greenInFlash g = (s.latchConflict (.greenInFlash g)).react :=
  if_pos (by rw [due, clear]; rfl)

theorem State.redOutEvent_due {s : State} {g : GroupId} (due : s.redDue g = true) (clear : s.lamps.redOut = none) :
    s.redOutEvent g = ((s.latchRedOut g).alsoConflict s.duePairs).react :=
  if_pos (by rw [due, clear]; rfl)

theorem State.uncommandedOn_due {s : State} {c : ChanId} (due : (s.lamps.channels.nth c).unDue = true) :
    s.uncommandedOn c = s.updChan c fun ch => { ch with unLive := true, unSticky := true } := if_pos due

theorem State.lampOut_due {s : State} {c : ChanId} (due : (s.lamps.channels.nth c).loDue = true) :
    s.lampOut c = s.updChan c fun ch => { ch with loLive := true, loSticky := true } := if_pos due

/-- CONFLICT with its latch clear, for any list of red-outs due at the moment (R156, R162, R177). -/
theorem State.conflict_latches {s : State} (clear : s.lamps.conflict = none) (c : ConflictCause) (reds : List GroupId)
    {t : State} (eq : t = State.react (State.alsoRedOut reds (s.latchConflict c))) :
    t.lamps.conflict = some c ∧ t.ctrl.mode = .faultFlash ∧ t.ctrl.reasons.conflict = true ∧
    t.ctrl.firstFault = s.firstWith .conflict ∧
    (s.lamps.redOut ≠ none ∨ reds = [] →
      t.lamps.redOut = s.lamps.redOut ∧ t.ctrl.reasons = { s.ctrl.reasons with conflict := true }) ∧
    (s.lamps.redOut = none → reds ≠ [] → ∃ g ∈ reds, t.lamps.redOut = some g ∧ t.ctrl.reasons.redOut = true) ∧
    t.line = s.line ∧ t.cycle = s.cycle ∧ t.plan = s.plan := by
  obtain ⟨flashed, latch, other, reasons⟩ := State.latchConflict_clear clear c
  obtain ⟨also, alsoLatch, alsoReason, kept, taken⟩ := State.alsoRedOut_law reds flashed
  obtain ⟨⟨mode, line, cycle, plan⟩, lateReasons, lateConflict, lateRedOut⟩ := State.react_faultFlash also
  subst eq
  refine ⟨by rw [lateConflict, alsoLatch, latch], mode, ?reason, ?first, ?keeps, ?takes, line, cycle, plan⟩
  case reason => rw [lateReasons, alsoReason, reasons]; rfl
  case first => rw [State.react_ctrl_firstFault, State.alsoRedOut_first reds flashed.1, State.latchConflict_first clear]
  case keeps =>
    intro none
    obtain ⟨redOut, same⟩ := kept (none.symm.imp id fun h => by rwa [other])
    exact ⟨by rw [lateRedOut, redOut, other], by rw [lateReasons, same, reasons]; rfl⟩
  case takes =>
    intro free due
    obtain ⟨g, mem, set, reason⟩ := taken due (other.trans free)
    exact ⟨g, mem, lateRedOut.trans set, by rw [lateReasons, reason]⟩

/-- RED_OUT with its latch clear, for any list of pairs due at the moment (R158, R162, R177). -/
theorem State.redOut_latches {s : State} (clear : s.lamps.redOut = none) (a : GroupId)
    (pairs : List (GroupId × GroupId)) {t : State}
    (eq : t = State.react (State.alsoConflict pairs (s.latchRedOut a))) :
    t.lamps.redOut = some a ∧ t.ctrl.mode = .faultFlash ∧ t.ctrl.reasons.redOut = true ∧
    t.ctrl.firstFault = s.firstWith .redOut ∧
    (s.lamps.conflict ≠ none ∨ pairs = [] →
      t.lamps.conflict = s.lamps.conflict ∧ t.ctrl.reasons = { s.ctrl.reasons with redOut := true }) ∧
    (s.lamps.conflict = none → pairs ≠ [] →
      ∃ q ∈ pairs, t.lamps.conflict = some (.conflict q.1 q.2) ∧ t.ctrl.reasons.conflict = true) ∧
    t.line = s.line ∧ t.cycle = s.cycle ∧ t.plan = s.plan := by
  obtain ⟨flashed, latch, other, reasons⟩ := State.latchRedOut_clear clear a
  obtain ⟨also, alsoLatch, alsoReason, kept, taken⟩ := State.alsoConflict_law pairs flashed
  obtain ⟨⟨mode, line, cycle, plan⟩, lateReasons, lateConflict, lateRedOut⟩ := State.react_faultFlash also
  subst eq
  refine ⟨by rw [lateRedOut, alsoLatch, latch], mode, ?reason, ?first, ?keeps, ?takes, line, cycle, plan⟩
  case reason => rw [lateReasons, alsoReason, reasons]; rfl
  case first => rw [State.react_ctrl_firstFault, State.alsoConflict_first pairs flashed.1, State.latchRedOut_first clear]
  case keeps =>
    intro none
    obtain ⟨conflict, same⟩ := kept (none.symm.imp id fun h => by rwa [other])
    exact ⟨by rw [lateConflict, conflict, other], by rw [lateReasons, same, reasons]; rfl⟩
  case takes =>
    intro free due
    obtain ⟨q, mem, set, reason⟩ := taken due (other.trans free)
    exact ⟨q, mem, lateConflict.trans set, by rw [lateReasons, reason]⟩

/-- Settles O44: the conditions, the fault event, the latches, and each event at its time. -/
theorem checksSetLatchesAndFlags : Obligations.ChecksSetLatchesAndFlags := by
  refine ⟨fun s a b => ⟨s.pairLit_iff a b, s.greenLit_iff a, s.redDark_iff a⟩, fun s r => ?fault,
    fun r => ⟨rfl, rfl, rfl, rfl⟩,
    fun s => ⟨s.latchConflict_eq, s.latchRedOut_eq, ⟨rfl, fun _ => s.alsoRedOut_takes⟩,
      ⟨rfl, fun _ => s.alsoConflict_takes⟩, s.mem_dueReds, s.mem_duePairs⟩,
    fun s a b => ⟨?conflict, ?green, ?redOut⟩, fun s c => ⟨?uncommanded, ?lampOut⟩⟩
  case fault =>
    by_cases flash : s.ctrl.mode = .faultFlash
    · rw [if_pos flash, State.faultEvent_flash flash]
    · rw [if_neg flash, State.faultEvent_enters flash]
  case conflict =>
    intro order lit long
    refine ⟨fun clear => ?_, fun set => next_of_rests (State.conflictEvent_rests (.inr (.inr (.inr set))))⟩
    have event := State.conflictEvent_due ((s.conflictDue_iff a b).mpr ⟨order, lit, long⟩) clear
    obtain ⟨latch, mode, reason, first, kept, taken, frame⟩ :=
      State.conflict_latches clear (.conflict a b) s.dueReds event
    refine ⟨_, rfl, event, latch, mode, reason, first.trans (s.firstWith_eq _), fun h => kept ?_, fun free due => ?_, frame⟩
    · exact h.imp id s.dueReds_empty.mpr
    · obtain ⟨x, dark, out⟩ := due
      obtain ⟨g, mem, set⟩ := taken free (List.ne_nil_of_mem ((s.mem_dueReds x).mpr ⟨dark, out⟩))
      obtain ⟨gDark, gOut⟩ := (s.mem_dueReds g).mp mem
      exact ⟨g, gDark, gOut, set⟩
  case green =>
    intro lit long
    refine ⟨fun clear => ?_, fun set => next_of_rests (State.greenInFlash_rests (.inr (.inr set)))⟩
    have event := State.greenInFlash_due ((s.greenDue_iff a).mpr ⟨lit, long⟩) clear
    obtain ⟨latch, mode, reason, first, kept, _, frame⟩ := State.conflict_latches clear (.greenInFlash a) [] event
    exact ⟨_, rfl, event, latch, mode, reason, first.trans (s.firstWith_eq _), (kept (.inr rfl)).1, frame⟩
  case redOut =>
    intro dark long
    refine ⟨fun clear => ?_, fun set => next_of_rests (State.redOutEvent_rests (.inr (.inr set)))⟩
    have event := State.redOutEvent_due ((s.redDue_iff a).mpr ⟨dark, long⟩) clear
    obtain ⟨latch, mode, reason, first, kept, taken, frame⟩ := State.redOut_latches clear a s.duePairs event
    refine ⟨_, rfl, event, latch, mode, reason, first.trans (s.firstWith_eq _), fun h => kept ?_, fun free due => ?_, frame⟩
    · exact h.imp id s.duePairs_empty.mpr
    · obtain ⟨x, y, order, lit, out⟩ := due
      obtain ⟨q, mem, set⟩ := taken free (List.ne_nil_of_mem ((s.mem_duePairs (x, y)).mpr ⟨order, lit, out⟩))
      obtain ⟨qOrder, qLit, qOut⟩ := (s.mem_duePairs q).mp mem
      exact ⟨q.1, q.2, qOrder, qLit, qOut, set⟩
  case uncommanded =>
    intro long clear
    exact congrArg Host.Outcome.next (State.uncommandedOn_due ((Chan.unDue_iff _).mpr ⟨long, clear⟩))
  case lampOut =>
    intro long clear
    exact congrArg Host.Outcome.next (State.lampOut_due ((Chan.loDue_iff _).mpr ⟨long, clear⟩))

end Sys2Proof.Machine
end

section
/-! PROOFS. The self-check's end, and an entry to a mode with its flash request judged (R165, R173, R175). -/

namespace Sys2Proof.Machine

/-! ### The judged entry (R175) -/

theorem State.flashSet_clearing {s : State} (mode : s.ctrl.mode = .startFlash ∨ s.ctrl.mode = .allRed) :
    s.flashSet = s.enterMode .panelFlash := by
  unfold State.flashSet
  rcases mode with h | h <;> rw [h]

theorem State.enterJudged_calm {s : State} (calm : s.flashRequest = false) (m : Mode) :
    s.enterJudged m = s.enterMode m := by
  refine if_neg ?_
  rw [State.flashRequest, State.enterMode_panel]
  exact fun set => absurd (calm.symm.trans set) nofun

theorem State.enterJudged_flash {s : State} (flash : s.flashRequest = true) (m : Mode) :
    s.enterJudged m = (s.enterMode m).flashSet := by
  refine if_pos ?_
  rw [State.flashRequest, State.enterMode_panel]
  exact flash

/-- The controller after a judged entry to START_FLASH or ALL_RED (R174, R175). -/
theorem State.enterJudged_ctrl (s : State) {m : Mode} (mode : m = .startFlash ∨ m = .allRed) :
    (s.enterJudged m).ctrl = { s.ctrl with
      mode := if s.flashRequest = true then .panelFlash else m
      timer := if s.flashRequest = true then none else some 0
      wait := false } := by
  cases flash : s.flashRequest with
  | false =>
    rw [State.enterJudged_calm flash, State.enterMode_ctrl]
    rcases mode with rfl | rfl <;> rfl
  | true =>
    rw [State.enterJudged_flash flash, State.flashSet_clearing (by rwa [State.enterMode_mode]), State.enterMode_ctrl,
      State.enterMode_ctrl]
    rfl

theorem State.enterJudged_react_ctrl (s : State) {m : Mode} (mode : m = .startFlash ∨ m = .allRed) :
    (s.enterJudged m).react.ctrl = (s.enterJudged m).ctrl :=
  State.react_ctrl_of_not_waiting (by rw [State.enterJudged_ctrl s mode])

theorem State.enterJudged_startFlash_self (s : State) : (s.enterJudged .startFlash).selfState = s.selfState := by
  cases flash : s.flashRequest with
  | false =>
    rw [State.enterJudged_calm flash]
    exact s.enterMode_self nofun
  | true =>
    rw [State.enterJudged_flash flash, State.flashSet_clearing (.inl (State.enterMode_mode _ _))]
    exact (State.enterMode_self _ (m := .panelFlash) nofun).trans (s.enterMode_self (m := .startFlash) nofun)

/-! ### The self-check's events (R165) -/

theorem State.selfCheckSettleEnd_clear {s : State} (due : s.selfSettleDue = true) (off : ∀ c, s.sensed c = false) :
    s.selfCheckSettleEnd = { s with lamps := { s.lamps with selfJudging := true } } := by
  unfold State.selfCheckSettleEnd
  rw [if_pos due, s.channelsOn_nil.mpr off]

theorem State.selfCheckSettleEnd_fails {s : State} (due : s.selfSettleDue = true) (on : ∃ c, s.sensed c = true) :
    ∃ c, s.sensed c = true ∧ s.selfCheckSettleEnd =
      State.selfCheckFail { s with freeCount := s.freeCount + 1, lamps := { s.lamps with selfJudging := true } } c := by
  unfold State.selfCheckSettleEnd
  rw [if_pos due]
  obtain ⟨c, lit⟩ := on
  have mem := (s.mem_channelsOn c).mpr lit
  cases list : s.channelsOn with
  | nil => rw [list] at mem; cases mem
  | cons d l =>
    refine ⟨_, ?_, rfl⟩
    rw [← State.mem_channelsOn, list]
    exact getD_mem _ _ _ (List.mem_cons_self ..)

theorem State.selfCheckPass_due {s : State} (due : s.selfPassDue = true) : s.selfCheckPass =
    State.react (State.enterJudged { s with lamps := { s.lamps with
      selfCheck := .passed, selfJudging := false, checkPassed := true } } .startFlash) := if_pos due

/-- The channel after its sense has held, with its agreement and the checks (R154, R160). -/
theorem State.sampleSense_senseSync_eq (s : State) (c : ChanId) (level : Bool) {held : Nat} (long : 625 ≤ held) :
    (s.sampleSense c level held).senseSync c = State.monitorSync { s with lamps := { s.lamps with
      channels := s.lamps.channels.put c (Chan.agree s.lamps.phase { s.lamps.channels.nth c with
        sense := { raw := level, time := 625, level := some level } }) } } := by
  have sample := Filter.sample_held tSNF (s.lamps.channels.nth c).sense level held long
  unfold State.senseSync State.sampleSense State.updChan Table.upd
  dsimp only
  rw [sample, Table.nth_put_self, Table.put_put]
  rfl

/-- A channel that comes on while the self-check judges fails it (R154, R165). -/
theorem State.senseChange_fails {s : State} (live : s.ctrl.mode ≠ .dark) (watching : s.selfWatching = true)
    {c : ChanId} (off : s.sensed c = false) {held : Nat} (long : 625 ≤ held) :
    s.senseChange c true held = ((s.sampleSense c true held).senseSync c).selfCheckFail c := by
  unfold State.senseChange
  dsimp only
  rw [if_neg live, if_pos]
  rw [off, State.sampleSense_sensed_held s c true long]
  exact watching

/-- Settles O45: the settle end, the pass and a channel that comes on, each by its lemma. -/
theorem selfCheckPassesOrFails : Obligations.SelfCheckPassesOrFails := by
  refine fun s => ⟨fun running settling long => ⟨fun off => ?clear, fun on => ?fails⟩, ?pass, ?sense⟩
  case clear =>
    exact congrArg Host.Outcome.next
      (State.selfCheckSettleEnd_clear (s.selfSettleDue_iff.mpr ⟨running, settling, long⟩) off)
  case fails =>
    obtain ⟨c, lit, event⟩ :=
      State.selfCheckSettleEnd_fails (s.selfSettleDue_iff.mpr ⟨running, settling, long⟩) on
    obtain ⟨selfCheck, first, passed, mode, reason, line, cycle, plan⟩ := State.selfCheckFail_law
      { s with freeCount := s.freeCount + 1, lamps := { s.lamps with selfJudging := true } } c
    exact ⟨_, c, congrArg Host.Outcome.next event, lit, rfl, selfCheck, first, passed, mode, reason, line, cycle, plan⟩
  case pass =>
    intro check running judging long off
    have event := State.selfCheckPass_due (s.selfPassDue_iff.mpr ⟨check, running, judging, long, off⟩)
    generalize judged : ({ s with lamps := { s.lamps with
      selfCheck := .passed, selfJudging := false, checkPassed := true } } : State) = u at event
    have ctrl := (u.enterJudged_react_ctrl (.inl rfl)).trans (u.enterJudged_ctrl (.inl rfl))
    have self := (State.react_self _).trans u.enterJudged_startFlash_self
    have follows := (u.enterJudged_follows .startFlash).trans (State.react_follows _)
    subst judged
    refine ⟨_, congrArg Host.Outcome.next event, rfl, congrArg Prod.fst self, congrArg (fun x => x.2.2.2.2) self,
      congrArg Ctrl.mode ctrl, fun calm => ?timer, follows.ctrl_reasons_eq, follows.line_eq, follows.cycle_eq,
      follows.plan_eq⟩
    case timer =>
      refine (congrArg Ctrl.timer ctrl).trans (if_neg ?_)
      exact fun set => absurd (calm.symm.trans set) nofun
  case sense =>
    intro c held check running judging off long
    have watching : s.selfWatching = true := by rw [State.selfWatching, running, judging]; rfl
    have event := State.senseChange_fails (by rw [check]; nofun) watching off long
    rw [State.sampleSense_senseSync_eq s c true long] at event
    obtain ⟨selfCheck, first, _, mode, reason, _⟩ := State.selfCheckFail_law _ c
    exact ⟨_, _, congrArg Host.Outcome.next event, rfl, rfl, selfCheck, first, mode, reason⟩

end Sys2Proof.Machine
end

section
/-! PROOFS. The mode timer's ends, the start change and the sequencer's own steps (R85 to R98, R174). -/

namespace Sys2Proof.Machine

/-! ### Opening and closing requests (R63, R64) -/

theorem Group.openRequest_holds {r : Group} (held : r.held = .none) (state : r.state = .red ∨ r.state = .clearing) :
    r.openRequest = { r with held := .open } := by
  unfold Group.openRequest
  rcases state with h | h <;> rw [h, held]

theorem Group.openRequest_cancels {r : Group} (held : r.held = .close) (state : r.state = .prepare ∨ r.state = .green) :
    r.openRequest = { r with held := .none } := by
  unfold Group.openRequest
  rcases state with h | h <;> rw [h, held]

theorem Group.openRequest_rests {r : Group} (rests : r.held = .none ∧ (r.state = .prepare ∨ r.state = .green) ∨
    r.held = .open ∧ (r.state = .red ∨ r.state = .clearing) ∨ r.state = .flashing ∨ r.state = .dark) :
    r.openRequest = r := by
  unfold Group.openRequest
  rcases rests with ⟨held, state | state⟩ | ⟨held, state | state⟩ | state | state <;> split <;> simp_all

theorem Group.closeRequest_holds {r : Group} (held : r.held = .none)
    (state : r.state = .prepare ∨ r.state = .green ∧ r.minDone = false) : r.closeRequest = { r with held := .close } := by
  unfold Group.closeRequest
  rcases state with h | ⟨h, running⟩
  · rw [h, held]
  · rw [h, held, running]
    rfl

theorem Group.closeRequest_clears {r : Group} (held : r.held = .none) (state : r.state = .green)
    (done : r.minDone = true) : r.closeRequest = r.toClearing := by
  unfold Group.closeRequest
  rw [state, held, done]
  rfl

theorem Group.closeRequest_cancels {r : Group} (held : r.held = .open) (state : r.state = .red ∨ r.state = .clearing) :
    r.closeRequest = { r with held := .none } := by
  unfold Group.closeRequest
  rcases state with h | h <;> rw [h, held]

theorem Group.closeRequest_rests {r : Group} (rests : r.held = .none ∧ (r.state = .red ∨ r.state = .clearing) ∨
    r.held = .close ∧ (r.state = .prepare ∨ r.state = .green) ∨ r.state = .flashing ∨ r.state = .dark) :
    r.closeRequest = r := by
  unfold Group.closeRequest
  rcases rests with ⟨held, state | state⟩ | ⟨held, state | state⟩ | state | state <;> split <;> simp_all

/-! ### What the sequencer judges (R87 to R92) -/

theorem State.stageAll_iff (s : State) (t : StageId) (p : Group → Bool) : s.stageAll t p = true ↔
    ∀ g, BitSet.has (s.stageGroups t) g = true → p (s.groups.nth g) = true := by
  simp only [State.stageAll, allFin_iff, Bool.or_eq_true, Bool.not_eq_true', ← Bool.not_eq_true, Decidable.imp_iff_not_or]

theorem State.openingLeftRed_iff (s : State) (c : Change) : s.openingLeftRed c = true ↔
    ∃ g, BitSet.has c.opening g = true ∧ ((s.groups.nth g).state = .prepare ∨ (s.groups.nth g).state = .green) := by
  simp only [State.openingLeftRed, anyFin_iff, Bool.and_eq_true, Bool.or_eq_true, beq_iff_eq]

theorem State.changeComplete_iff (s : State) (c : Change) : s.changeComplete c = true ↔
    (∀ g, BitSet.has (s.stageGroups c.toStage) g = true → (s.groups.nth g).state = .green) ∧
      ∀ g, BitSet.has c.closing g = true → (s.groups.nth g).state = .red := by
  simp only [State.changeComplete, Bool.and_eq_true, State.stageAll_iff, allFin_iff, beq_iff_eq, Bool.or_eq_true,
    Bool.not_eq_true', ← Bool.not_eq_true, Decidable.imp_iff_not_or]

theorem State.mayEnd_iff (s : State) (t : StageId) : s.mayEnd t = true ↔
    s.manualFlag = false ∧ s.seq.service ≠ some t ∧ s.ctrl.wait = false ∧
      if s.coordinatedOp = true ∧ s.mainStage = some t then s.seq.release = true
      else (∀ g, BitSet.has (s.stageGroups t) g = true → (s.groups.nth g).minDone = true ∧
          ((s.groups.nth g).gapped = true ∨ (s.groups.nth g).maxDone = true)) ∨
        s.coordinatedOp = true ∧ s.seq.forceOff = true ∧
          ∀ g, BitSet.has (s.stageGroups t) g = true → (s.groups.nth g).minDone = true := by
  unfold State.mayEnd State.holding
  simp only [Bool.and_eq_true, Bool.not_eq_true', beq_eq_false_iff_ne, beq_iff_eq, and_assoc]
  split <;> simp only [Bool.or_eq_true, Bool.and_eq_true, State.stageAll_iff, and_assoc, ne_eq]

theorem State.demand_iff (s : State) (t : StageId) : s.demand t = true ↔ s.coordinatedOp = true ∧ s.mainStage = some t ∨
    ∃ g, BitSet.has (s.stageGroups t) g = true ∧ (s.groups.nth g).state ≠ .green ∧ s.hasCall g = true := by
  simp only [State.demand, Bool.or_eq_true, Bool.and_eq_true, beq_iff_eq, anyFin_iff, Bool.not_eq_true',
    beq_eq_false_iff_ne, ne_eq, and_assoc]

theorem State.selectTarget_some {s : State} {t u : StageId} (chosen : s.selectTarget t = some u) :
    s.demand u = true ∧ s.eligible u = true ∧
      ∃ l r, searchOrder s.sequence t = l ++ u :: r ∧ ∀ x ∈ l, ¬ (s.demand x = true ∧ s.eligible x = true) := by
  obtain ⟨taken, l, r, split, before⟩ := List.find?_eq_some_iff_append.mp chosen
  obtain ⟨demand, eligible⟩ := Bool.and_eq_true_iff.mp taken
  refine ⟨demand, eligible, l, r, split, fun x mem both => ?_⟩
  have passed := before x mem
  rw [both.1, both.2] at passed
  cases passed

theorem State.selectTarget_none {s : State} {t : StageId} (idle : s.selectTarget t = none) :
    ∀ x ∈ searchOrder s.sequence t, ¬ (s.demand x = true ∧ s.eligible x = true) := by
  intro x mem both
  exact List.find?_eq_none.mp idle x mem (Bool.and_eq_true_iff.mpr both)

theorem searchOrder_split {l r : List StageId} {t : StageId} (first : t ∉ l) :
    searchOrder (l ++ t :: r) t = r ++ l := by
  have passes : ∀ x ∈ l, (x != t) = true := fun x mem => bne_iff_ne.mpr fun eq => first (eq ▸ mem)
  have mem : (l ++ t :: r).contains t = true := by simp
  unfold searchOrder
  rw [if_pos mem, List.dropWhile_append_of_pos passes, List.takeWhile_append_of_pos passes]
  simp

theorem searchOrder_absent {l : List StageId} {t : StageId} (absent : t ∉ l) : searchOrder l t = l :=
  if_neg (by simpa using absent)

/-! ### The sequencer's changes (R93 to R98) -/

theorem State.startChange_main {s : State} {m : StageId} (main : s.mainStage = some m) : s.startChange =
    State.request (s.withSeq (.change
      { fromStage := none, toStage := m, closing := 0, opening := s.stageGroups m, committed := true
        replacement := if s.seq.service = some m then none else s.seq.service })) m := by
  unfold State.startChange
  rw [main]

theorem State.completeChange_rests {s : State} {c : Change}
    (last : c.replacement = none ∨ c.replacement = some c.toStage) : s.completeChange c =
      { s with seq := { s.seq with
        st := .dwell c.toStage
        release := if s.mainStage = some c.toStage then false else s.seq.release } } := by
  unfold State.completeChange
  rcases last with h | h <;> rw [h]
  exact if_pos rfl

theorem State.completeChange_replaced {s : State} {c : Change} {x : StageId} (next : c.replacement = some x)
    (other : x ≠ c.toStage) : s.completeChange c = State.beginChange
      { s with seq := { s.seq with
        st := .dwell c.toStage
        release := if s.mainStage = some c.toStage then false else s.seq.release } } c.toStage x := by
  unfold State.completeChange
  rw [next]
  exact if_neg other

theorem State.openingSet_has (s : State) (t : StageId) (g : GroupId) : BitSet.has (s.openingSet t) g =
    (BitSet.has (s.stageGroups t) g && !((s.groups.nth g).state == .green)) := BitSet.has_bitsOf _ g

theorem State.seqStep_change {s : State} {c : Change} (st : s.seq.st = .change c) : s.seqStep =
    if (!c.committed && s.openingLeftRed c) = true then some (s.withSeq (.change { c with committed := true }))
    else if s.changeComplete c = true then some (s.completeChange c) else none := by
  unfold State.seqStep
  rw [st]

/-- A change that is committed, or whose opening set stands, has nothing to commit (R94). -/
theorem State.commits_nothing {s : State} {c : Change} (stands : c.committed = true ∨ ∀ g, BitSet.has c.opening g = true →
    (s.groups.nth g).state ≠ .prepare ∧ (s.groups.nth g).state ≠ .green) :
    ¬ (!c.committed && s.openingLeftRed c) = true := by
  rw [Bool.and_eq_true, Bool.not_eq_true', State.openingLeftRed_iff]
  rintro ⟨uncommitted, g, opens, left⟩
  rcases stands with committed | still
  · exact absurd (uncommitted.symm.trans committed) nofun
  · exact left.elim (still g opens).1 (still g opens).2

theorem State.seqStep_dwell {s : State} {t : StageId} (st : s.seq.st = .dwell t) : s.seqStep =
    if s.mayEnd t = true then (s.selectTarget t).map fun u => s.beginChange t u else none := by
  unfold State.seqStep
  rw [st]

/-! ### The ends of the mode timer (R174, R175) -/

theorem State.startFlashEnd_due {s : State} (due : s.startFlashDue = true) :
    s.startFlashEnd = (s.enterJudged .allRed).react := if_pos due

theorem State.enterMode_running {s : State} (mode : s.ctrl.mode = .allRed) : s.enterMode .running =
    State.lampSync (State.arbitrate (State.startChange
      { s with ctrl := { s.ctrl with mode := .running, timer := none, wait := false } })) := by
  unfold State.enterMode
  rw [mode]
  rfl

theorem State.allRedEnd_calm {s : State} (due : s.allRedDue = true) (calm : s.flashRequest = false) :
    s.allRedEnd = (s.enterMode .running).react := by
  have same : (s.enterMode .running).react.flashRequest = s.flashRequest := by
    rw [State.flashRequest, State.react_panel, State.enterMode_panel]; rfl
  unfold State.allRedEnd
  dsimp only
  rw [if_pos due, same, if_neg (by rw [calm]; nofun)]

theorem State.allRedEnd_flash {s : State} (due : s.allRedDue = true) (flash : s.flashRequest = true) :
    s.allRedEnd = (s.enterMode .running).react.flashSet.react := by
  have same : (s.enterMode .running).react.flashRequest = s.flashRequest := by
    rw [State.flashRequest, State.react_panel, State.enterMode_panel]; rfl
  unfold State.allRedEnd
  dsimp only
  rw [if_pos due, same, if_pos flash]

theorem State.allRedEnd_follows {s : State} (due : s.allRedDue = true) : s.follows s.allRedEnd := by
  have first := (s.enterMode_follows .running).trans (State.react_follows _)
  cases flash : s.flashRequest with
  | false => rw [State.allRedEnd_calm due flash]; exact first
  | true =>
    rw [State.allRedEnd_flash due flash]
    exact first.trans ((State.flashSet_follows _).trans (State.react_follows _))

/-- Settles O47: the timer's ends, the three ways a change starts, the step of each sequencer state, what it judges,
and the requests it sends. -/
theorem modeTimerEndsAndStartChange : Obligations.ModeTimerEndsAndStartChange := by
  refine ⟨fun s p n planned timer => ⟨?startFlash, ?allRed⟩, fun s m main => ⟨?startSeq, ?startGroups⟩,
    fun s a t c => ⟨⟨_, _, rfl, fun g => BitSet.has_bitsOf _ g, s.openingSet_has t⟩,
      ⟨_, _, rfl, fun g => BitSet.has_bitsOf _ g, s.openingSet_has t⟩,
      fun g => ⟨State.request_nth _ t g, rfl⟩,
      _, rfl, State.completeChange_rests, fun x => State.completeChange_replaced⟩,
    fun s => ⟨s.seqStep_idle, fun c st => ⟨?commits, fun stands => ⟨?completes, ?waits⟩⟩,
      fun t st => ⟨?ends, ?stays⟩⟩,
    fun s t => ⟨s.mayEnd_iff t, s.demand_iff t, fun u => State.selectTarget_some, State.selectTarget_none,
      fun l r split first => by rw [split, searchOrder_split first], searchOrder_absent⟩,
    fun s t => ⟨State.eligible_always, (s.tMINOf_law t).1, (s.tMINOf_law t).2, ?window⟩,
    fun r => ⟨Group.openRequest_holds, Group.openRequest_cancels, Group.openRequest_rests, Group.closeRequest_holds,
      Group.closeRequest_clears, Group.closeRequest_cancels, Group.closeRequest_rests⟩⟩
  case startFlash =>
    intro mode long
    have due := s.startFlashDue_iff.mpr ⟨mode, n, timer, by rwa [State.planTime_some planned]⟩
    have ctrl := (s.enterJudged_react_ctrl (.inr rfl)).trans (s.enterJudged_ctrl (.inr rfl))
    have follows := (s.enterJudged_follows .allRed).trans (State.react_follows _)
    refine ⟨_, congrArg Host.Outcome.next (State.startFlashEnd_due due), rfl, fun calm => ?_, fun flash => ?_,
      follows.ctrl_reasons_eq, follows.line_eq, follows.cycle_eq, follows.plan_eq⟩
    · rw [calm] at ctrl
      exact ⟨congrArg Ctrl.mode ctrl, congrArg Ctrl.timer ctrl⟩
    · rw [flash] at ctrl
      exact ⟨congrArg Ctrl.mode ctrl, congrArg Ctrl.timer ctrl⟩
  case allRed =>
    intro mode long
    have due := s.allRedDue_iff.mpr ⟨mode, n, timer, by rwa [State.planTime_some planned]⟩
    have follows := State.allRedEnd_follows due
    refine ⟨_, rfl, fun calm => ?calm, fun flash => ?flash, follows.ctrl_reasons_eq, follows.line_eq,
      follows.cycle_eq, follows.plan_eq⟩
    case calm =>
      have event := State.allRedEnd_calm due calm
      have ctrl : s.allRedEnd.ctrl = { s.ctrl with mode := .running, timer := none, wait := false } := by
        rw [event, State.enterMode_react_ctrl, State.enterMode_ctrl]
        rfl
      rw [State.enterMode_running mode] at event
      exact ⟨event, congrArg Ctrl.mode ctrl, congrArg Ctrl.timer ctrl, congrArg Ctrl.wait ctrl⟩
    case flash =>
      have event := State.allRedEnd_flash due flash
      rwa [State.enterMode_running mode] at event
  case startSeq =>
    rw [State.startChange_main main]
    rfl
  case startGroups =>
    intro g
    rw [State.startChange_main main]
    exact State.request_nth _ m g
  case commits =>
    intro uncommitted left
    rw [State.seqStep_change st, uncommitted, s.openingLeftRed_iff c |>.mpr left]
    rfl
  case completes =>
    intro complete
    rw [State.seqStep_change st, if_neg (State.commits_nothing stands), if_pos ((s.changeComplete_iff c).mpr complete)]
  case waits =>
    intro incomplete
    rw [State.seqStep_change st, if_neg (State.commits_nothing stands), if_neg (mt (s.changeComplete_iff c).mp incomplete)]
  case ends =>
    intro u may chosen
    rw [State.seqStep_dwell st, if_pos may, chosen]
    rfl
  case stays =>
    intro rests
    rw [State.seqStep_dwell st]
    rcases rests with h | h <;> simp [h]
  case window =>
    intro p d planned pattern coordinated other
    have window := State.eligible_window planned pattern coordinated other
    refine ⟨window, fun early => ?_, fun first room => window.mpr ⟨Nat.le_of_eq first.symm, by omega⟩,
      fun released last => window.mpr ⟨released, by omega⟩, fun late => ?_⟩
    · exact Bool.eq_false_iff.mpr fun eligible => by
        have := (window.mp eligible).1
        omega
    · exact Bool.eq_false_iff.mpr fun eligible => by
        have := (window.mp eligible).2
        omega

end Sys2Proof.Machine
end

section
/-! PROOFS. Entries to a mode and the flash request (R76 to R79, R169, R174 to R176, R193). -/

namespace Sys2Proof.Machine

/-! ### The flash request's filter (R193) -/

/-- The state with another flash request filter. -/
def State.withFlash (s : State) (f : Filter) : State := { s with panel := { s.panel with flash := f } }

theorem Filter.take_unsupplied {runs : Bool} (off : runs = false) (limit : Nat) (f : Filter) (level : Bool) (held : Nat) :
    f.take runs limit level held = { f with raw := level } := by
  rw [off, Filter.take_low]

theorem Filter.take_long {runs : Bool} {limit held : Nat} (on : runs = true) (long : limit ≤ held) (f : Filter)
    (level : Bool) : f.take runs limit level held = { raw := level, time := limit, level := some level } := by
  rw [on, Filter.take_held long]

theorem Filter.take_brief {runs : Bool} {limit held : Nat} (on : runs = true) (short : held < limit) (f : Filter)
    (level : Bool) : f.take runs limit level held = { raw := level, time := held, level := f.level } := by
  rw [on, Filter.take_short short]

theorem State.sampleFlash_eq (s : State) (level : Bool) (held : Nat) :
    s.sampleFlash level held = s.withFlash (s.panel.flash.take s.supplyOk tPF level held) := rfl

theorem State.sampleFlash_unsupplied {s : State} (off : s.supplyOk = false) (level : Bool) (held : Nat) :
    s.sampleFlash level held = s.withFlash { s.panel.flash with raw := level } := by
  rw [State.sampleFlash_eq, Filter.take_unsupplied off]

theorem State.sampleFlash_held {s : State} (on : s.supplyOk = true) (level : Bool) {held : Nat} (long : 3125 ≤ held) :
    s.sampleFlash level held = s.withFlash { raw := level, time := 3125, level := some level } := by
  rw [State.sampleFlash_eq, Filter.take_long (limit := tPF) on long]
  rfl

theorem State.sampleFlash_short {s : State} (on : s.supplyOk = true) (level : Bool) {held : Nat} (short : held < 3125) :
    s.sampleFlash level held = s.withFlash { raw := level, time := held, level := s.panel.flash.level } := by
  rw [State.sampleFlash_eq, Filter.take_brief (limit := tPF) on short]

/-! ### The flash request's change, by what it changes (R175, R176) -/

theorem State.flashRequestChange_same {s : State} {level : Bool} {held : Nat}
    (same : (s.sampleFlash level held).flashRequest = s.flashRequest) :
    s.flashRequestChange level held = s.sampleFlash level held := if_pos same

theorem State.flashRequestChange_dark {s : State} (dark : s.ctrl.mode = .dark) (level : Bool) (held : Nat) :
    s.flashRequestChange level held = s.sampleFlash level held := by
  unfold State.flashRequestChange
  dsimp only
  rw [if_pos dark, ite_self]

theorem State.flashRequestChange_set {s : State} {level : Bool} {held : Nat} (live : s.ctrl.mode ≠ .dark)
    (old : s.flashRequest = false) (new : (s.sampleFlash level held).flashRequest = true) :
    s.flashRequestChange level held = (s.sampleFlash level held).flashSet.react := by
  unfold State.flashRequestChange
  dsimp only
  rw [old, new, if_neg nofun, if_neg live, if_pos rfl]

theorem State.flashRequestChange_cleared {s : State} {level : Bool} {held : Nat} (live : s.ctrl.mode ≠ .dark)
    (old : s.flashRequest = true) (new : (s.sampleFlash level held).flashRequest = false) :
    s.flashRequestChange level held = (s.sampleFlash level held).flashCleared.react := by
  unfold State.flashRequestChange
  dsimp only
  rw [old, new, if_neg nofun, if_neg live, if_neg nofun]

/-! ### A set request by mode -/

theorem State.flashSet_eq (s : State) : s.flashSet =
    if s.ctrl.mode = .startFlash ∨ s.ctrl.mode = .allRed ∨ s.ctrl.mode = .running ∧ s.movingCount = 0
    then s.enterMode .panelFlash
    else if s.ctrl.mode = .running then { s with ctrl := { s.ctrl with wait := true } } else s := by
  unfold State.flashSet
  cases mode : s.ctrl.mode
  case running => by_cases still : s.movingCount = 0 <;> simp [still]
  all_goals simp

theorem State.flashSet_enters {s : State}
    (mode : s.ctrl.mode = .startFlash ∨ s.ctrl.mode = .allRed ∨ s.ctrl.mode = .running ∧ s.movingCount = 0) :
    s.flashSet = s.enterMode .panelFlash := by rw [State.flashSet_eq, if_pos mode]

theorem State.flashSet_waits {s : State} (running : s.ctrl.mode = .running) (moving : s.movingCount ≠ 0) :
    s.flashSet = { s with ctrl := { s.ctrl with wait := true } } := by
  rw [State.flashSet_eq, if_neg (by simp [running, moving]), if_pos running]

theorem State.flashSet_rests {s : State} (mode : s.ctrl.mode = .loading ∨ s.ctrl.mode = .check ∨
    s.ctrl.mode = .panelFlash ∨ s.ctrl.mode = .faultFlash) : s.flashSet = s := by
  unfold State.flashSet
  rcases mode with h | h | h | h <;> rw [h]

/-- Outside RUNNING what follows an event leaves the controller (R176). -/
theorem State.react_ctrl_standing {s : State} (standing : s.ctrl.mode ≠ .running) : s.react.ctrl = s.ctrl := by
  rcases s.react_ctrl with same | ⟨running, _⟩
  · exact same
  · exact absurd running standing

theorem State.flashSet_enters_ctrl {s : State}
    (mode : s.ctrl.mode = .startFlash ∨ s.ctrl.mode = .allRed ∨ s.ctrl.mode = .running ∧ s.movingCount = 0) :
    s.flashSet.react.ctrl = { s.ctrl with mode := .panelFlash, timer := none, wait := false } := by
  rw [State.flashSet_enters mode, State.enterMode_react_ctrl, State.enterMode_ctrl]
  rfl

theorem State.flashSet_rests_ctrl {s : State} (mode : s.ctrl.mode = .loading ∨ s.ctrl.mode = .check ∨
    s.ctrl.mode = .panelFlash ∨ s.ctrl.mode = .faultFlash) : s.flashSet.react.ctrl = s.ctrl := by
  rw [State.flashSet_rests mode]
  refine State.react_ctrl_standing ?_
  rcases mode with h | h | h | h <;> rw [h] <;> nofun

/-! ### A cleared request by mode -/

theorem State.flashCleared_eq {s : State} (cleared : s.flashRequest = false) : s.flashCleared =
    if s.ctrl.mode = .running then { s with ctrl := { s.ctrl with wait := false } }
    else if s.ctrl.mode = .panelFlash then s.enterMode .allRed else s := by
  unfold State.flashCleared
  cases mode : s.ctrl.mode
  case panelFlash => exact State.enterJudged_calm cleared .allRed
  all_goals rfl

theorem State.flashCleared_follows (s : State) : s.follows s.flashCleared := by
  unfold State.flashCleared
  split
  case h_2 => exact s.enterJudged_follows .allRed
  all_goals exact s.follows_refl

theorem State.flashCleared_running_ctrl {s : State} (running : s.ctrl.mode = .running) :
    s.flashCleared.react.ctrl = { s.ctrl with wait := false } := by
  unfold State.flashCleared
  rw [running]
  exact State.react_ctrl_of_not_waiting rfl

theorem State.flashCleared_panelFlash_ctrl {s : State} (cleared : s.flashRequest = false)
    (flash : s.ctrl.mode = .panelFlash) :
    s.flashCleared.react.ctrl = { s.ctrl with mode := .allRed, timer := some 0, wait := false } := by
  rw [State.flashCleared_eq cleared, if_neg (by rw [flash]; nofun), if_pos flash, State.enterMode_react_ctrl,
    State.enterMode_ctrl]
  rfl

theorem State.flashCleared_rests_ctrl {s : State} (mode : s.ctrl.mode = .loading ∨ s.ctrl.mode = .check ∨
    s.ctrl.mode = .startFlash ∨ s.ctrl.mode = .allRed ∨ s.ctrl.mode = .faultFlash) :
    s.flashCleared.react.ctrl = s.ctrl := by
  have rests : s.flashCleared = s := by
    unfold State.flashCleared
    rcases mode with h | h | h | h | h <;> rw [h]
  rw [rests]
  refine State.react_ctrl_standing ?_
  rcases mode with h | h | h | h | h <;> rw [h] <;> nofun

/-! ### The forced groups (R76 to R79, R169) -/

theorem State.forceAll_forced {s : State} {g : GroupId} (forced : s.plan = none ∨ (s.groupPlan g).kind ≠ .unused)
    (f : Force) : (s.forceAll f).groups.nth g = (s.groups.nth g).force f.groupState := by
  rw [State.forceAll_nth, if_pos]
  rw [Bool.or_eq_true, Option.isNone_iff_eq_none, State.used_iff]
  exact forced

theorem State.forceAll_unused {s : State} {g : GroupId} (planned : s.plan ≠ none)
    (unused : (s.groupPlan g).kind = .unused) (f : Force) : (s.forceAll f).groups.nth g = s.groups.nth g := by
  rw [State.forceAll_nth, if_neg]
  rw [Bool.or_eq_true, Option.isNone_iff_eq_none, State.used_iff]
  exact fun h => h.elim planned fun used => used unused

theorem Mode.timerStart_eq (m : Mode) : m.timerStart = if m = .startFlash ∨ m = .allRed then some 0 else none := by
  cases m <;> rfl

theorem State.enterJudged_eq (s : State) (m : Mode) :
    s.enterJudged m = if s.flashRequest = true then (s.enterMode m).flashSet else s.enterMode m := by
  cases flash : s.flashRequest with
  | false => exact State.enterJudged_calm flash m
  | true => exact State.enterJudged_flash flash m

/-- Settles O48: the force input and its groups, the entry to a mode, and the request's change by mode. -/
theorem flashRequestByMode : Obligations.FlashRequestByMode := by
  refine ⟨fun m => ?force, fun s f => ⟨rfl, fun g => ⟨fun forced => ?forced, fun planned unused => State.forceAll_unused planned unused f⟩⟩,
    fun s old new => rfl, fun s m => ⟨_, _, _, rfl, rfl, rfl, ?entry, s.enterMode_groups⟩,
    fun s m => ⟨s.enterJudged_eq m, s.flashSet_eq⟩, fun s pin held => ⟨?unsupplied, ?unchanged⟩,
    fun s held on => ⟨?short, ?set, ?cleared⟩⟩
  case force => cases m <;> rfl
  case forced =>
    rw [State.forceAll_forced forced]
    cases f <;> rfl
  case entry =>
    rw [← Mode.timerStart_eq]
    rfl
  case unsupplied =>
    intro off
    have sample := State.sampleFlash_unsupplied off (!pin) held
    have event := State.flashRequestChange_same (s := s) (level := !pin) (held := held) (by rw [sample]; rfl)
    exact congrArg Host.Outcome.next (event.trans sample)
  case unchanged =>
    intro on long same
    have sample := State.sampleFlash_held on (!pin) long
    refine congrArg Host.Outcome.next (Eq.trans ?_ sample)
    rcases same with dark | other
    · exact State.flashRequestChange_dark dark (!pin) held
    · refine State.flashRequestChange_same (level := !pin) ?_
      rw [sample]
      cases pin <;> cases old : s.flashRequest
      · exact absurd old other
      · rfl
      · rfl
      · exact absurd old other
  case short =>
    intro pin short
    have sample := State.sampleFlash_short on (!pin) short
    have event := State.flashRequestChange_same (s := s) (level := !pin) (held := held) (by rw [sample]; rfl)
    exact congrArg Host.Outcome.next (event.trans sample)
  case set =>
    intro live old long
    have sample := State.sampleFlash_held on true long
    have event := State.flashRequestChange_set live old (by rw [sample]; rfl)
    rw [sample] at event
    have follows := (s.withFlash { raw := true, time := 3125, level := some true }).flashSet_follows.trans (State.react_follows _)
    refine ⟨s.flashRequestChange true held, rfl, ?_⟩
    generalize s.flashRequestChange true held = t at event
    rw [← event] at follows
    have panel : t.panel = { s.panel with flash := { raw := true, time := 3125, level := some true } } := follows.panel_eq
    refine ⟨by rw [panel]; exact event, panel, by rw [State.flashRequest, panel]; rfl, follows.line_eq,
      follows.cycle_eq, follows.plan_eq, fun mode => ?enters, fun running moving => ?waits, fun mode => ?rests⟩
    case enters =>
      have ctrl := (congrArg State.ctrl event).trans (State.flashSet_enters_ctrl mode)
      exact ⟨congrArg Ctrl.mode ctrl, congrArg Ctrl.timer ctrl, congrArg Ctrl.wait ctrl⟩
    case waits =>
      have waits := event.trans (congrArg State.react (State.flashSet_waits running moving))
      refine ⟨_, rfl, by rw [panel]; exact waits, ?_⟩
      rw [panel, waits]
      exact State.react_waiting rfl running moving
    case rests => exact (congrArg State.ctrl event).trans (State.flashSet_rests_ctrl mode)
  case cleared =>
    intro live old long
    have sample := State.sampleFlash_held on false long
    have event := State.flashRequestChange_cleared live old (by rw [sample]; rfl)
    rw [sample] at event
    have follows := (s.withFlash { raw := false, time := 3125, level := some false }).flashCleared_follows.trans (State.react_follows _)
    refine ⟨s.flashRequestChange false held, rfl, ?_⟩
    generalize s.flashRequestChange false held = t at event
    rw [← event] at follows
    have panel : t.panel = { s.panel with flash := { raw := false, time := 3125, level := some false } } := follows.panel_eq
    refine ⟨?effect, panel, by rw [State.flashRequest, panel]; rfl, follows.line_eq, follows.cycle_eq, follows.plan_eq,
      fun running => (congrArg State.ctrl event).trans (State.flashCleared_running_ctrl running),
      fun flash => ?leaves, fun mode => (congrArg State.ctrl event).trans (State.flashCleared_rests_ctrl mode)⟩
    case effect =>
      rw [panel]
      exact event.trans (congrArg State.react (State.flashCleared_eq rfl))
    case leaves =>
      have ctrl := (congrArg State.ctrl event).trans (State.flashCleared_panelFlash_ctrl rfl flash)
      exact ⟨congrArg Ctrl.mode ctrl, congrArg Ctrl.timer ctrl⟩

end Sys2Proof.Machine
end

section
/-! PROOFS. The panel fault reset (R161, R163, R179, R193). -/

namespace Sys2Proof.Machine

/-! ### A press: the rise of a panel filter (R193) -/

theorem Filter.rises_iff (f f' : Filter) : f.rises f' = true ↔ f.level = some false ∧ f'.level = some true := by
  rw [Filter.rises, Bool.and_eq_true, beq_iff_eq, beq_iff_eq]

theorem Filter.rises_stands {f f' : Filter} (same : f'.level = f.level) : f.rises f' = false := by
  rw [Bool.eq_false_iff, Ne, Filter.rises_iff, same]
  exact fun h => absurd (h.1.symm.trans h.2) nofun

theorem Filter.rises_falls {f f' : Filter} (low : f'.level = some false) : f.rises f' = false := by
  rw [Bool.eq_false_iff, Ne, Filter.rises_iff, low]
  exact fun h => absurd h.2 nofun

theorem Filter.rises_unreleased {f : Filter} (f' : Filter) (level : f.level ≠ some false) : f.rises f' = false := by
  rw [Bool.eq_false_iff, Ne, Filter.rises_iff]
  exact fun h => level h.1

/-! ### The fault reset's filter -/

/-- The state with another fault reset filter. -/
def State.withFaultReset (s : State) (f : Filter) : State := { s with panel := { s.panel with faultReset := f } }

/-- The fault reset's line has been asserted for tPF. -/
def State.pressed (s : State) : State := s.withFaultReset { raw := true, time := 3125, level := some true }

theorem State.sampleFaultReset_eq (s : State) (level : Bool) (held : Nat) :
    s.sampleFaultReset level held = s.withFaultReset (s.panel.faultReset.take s.supplyOk tPF level held) := rfl

theorem State.sampleFaultReset_held {s : State} (on : s.supplyOk = true) (level : Bool) {held : Nat}
    (long : 3125 ≤ held) : s.sampleFaultReset level held =
      s.withFaultReset { raw := level, time := 3125, level := some level } := by
  rw [State.sampleFaultReset_eq, Filter.take_long (limit := tPF) on long]
  rfl

theorem State.panelFaultReset_rests {s : State} {level : Bool} {held : Nat}
    (rests : s.ctrl.mode = .dark ∨ s.panel.faultReset.rises (s.panel.faultReset.take s.supplyOk tPF level held) = false) :
    s.panelFaultReset level held = s.sampleFaultReset level held := by
  refine if_neg ?_
  rw [Bool.and_eq_true, Bool.not_eq_true', beq_eq_false_iff_ne]
  rcases rests with dark | level
  · exact fun h => h.2 dark
  · exact fun h => absurd (level.symm.trans h.1) nofun

theorem State.panelFaultReset_press {s : State} {level : Bool} {held : Nat} (live : s.ctrl.mode ≠ .dark)
    (rises : s.panel.faultReset.rises (s.panel.faultReset.take s.supplyOk tPF level held) = true) :
    s.panelFaultReset level held = (s.sampleFaultReset level held).faultResetOrders.react := by
  refine if_pos ?_
  rw [Bool.and_eq_true, Bool.not_eq_true', beq_eq_false_iff_ne]
  exact ⟨rises, live⟩

/-! ### The orders of a fault reset (R161, R122, R179) -/

theorem State.resetClears_iff (s : State) :
    s.resetClears = true ↔ s.ctrl.mode = .faultFlash ∧ s.ctrl.reasons.plan = false := by
  rw [State.resetClears, Bool.and_eq_true, beq_iff_eq, Bool.not_eq_true']

theorem State.faultResetOrders_eq (s : State) : s.faultResetOrders =
    if s.ctrl.mode = .faultFlash ∧ s.ctrl.reasons.plan = false
    then (s.clearLampFlags.detectorFaultReset.clearLatches.emptyReasons).enterMode .check
    else s.clearLampFlags.detectorFaultReset := by
  simp only [← State.resetClears_iff]
  rfl

theorem State.faultResetOrders_dets (s : State) :
    s.faultResetOrders.dets = s.clearLampFlags.detectorFaultReset.dets := by
  rw [State.faultResetOrders_eq]
  split
  · rw [State.enterMode_dets]
    rfl
  · rfl

theorem State.clearLampFlags_nth (s : State) (c : ChanId) : s.clearLampFlags.lamps.channels.nth c =
    { s.lamps.channels.nth c with
      unSticky := (s.lamps.channels.nth c).unLive, loSticky := (s.lamps.channels.nth c).loLive } := Table.nth_tab _ c

theorem State.detectorFaultReset_rests {s : State} {d : LocalId}
    (rests : s.localDef d = none ∨ (s.dets.nth d).initial = false) :
    s.detectorFaultReset.dets.nth d = s.dets.nth d := by
  refine (Table.nth_tab _ d).trans ?_
  rcases rests with none | uninitial
  · rw [none]
  · cases s.localDef d with
    | none => rfl
    | some f => exact if_neg (by rw [uninitial]; nofun)

theorem State.detectorFaultReset_local {s : State} {d : LocalId} {f : LocalDef} (local_ : s.localDef d = some f)
    (initial : (s.dets.nth d).initial = true) : s.detectorFaultReset.dets.nth d = { s.dets.nth d with
      fault := .normal
      presence := if (s.dets.nth d).level = true then some 0 else none
      silence := if f.tMSL = 0 then none else some 0 } := by
  refine (Table.nth_tab _ d).trans ?_
  rw [local_]
  exact if_pos initial

theorem State.faultResetOrders_clears {s : State} (clears : s.ctrl.mode = .faultFlash ∧ s.ctrl.reasons.plan = false) :
    s.faultResetOrders = (s.clearLampFlags.detectorFaultReset.clearLatches.emptyReasons).enterMode .check := by
  rw [State.faultResetOrders_eq, if_pos clears]

theorem State.faultResetOrders_stands {s : State}
    (stands : ¬ (s.ctrl.mode = .faultFlash ∧ s.ctrl.reasons.plan = false)) :
    s.faultResetOrders = s.clearLampFlags.detectorFaultReset := by
  rw [State.faultResetOrders_eq, if_neg stands]

/-- The blocks that a fault reset has nothing to do with. -/
def State.resetFrame (s t : State) : Prop :=
  t.remotes = s.remotes ∧ t.line = s.line ∧ t.cycle = s.cycle ∧ t.peers = s.peers ∧ t.plan = s.plan ∧
    t.planRead = s.planRead ∧ t.diag = s.diag

theorem State.resetFrame.follows {s t u : State} (frame : s.resetFrame t) (follows : t.follows u) : s.resetFrame u := by
  obtain ⟨remotes, line, cycle, peers, plan, planRead, diag⟩ := frame
  exact ⟨follows.remotes_eq.trans remotes, follows.line_eq.trans line, follows.cycle_eq.trans cycle,
    follows.peers_eq.trans peers, follows.plan_eq.trans plan, follows.planRead_eq.trans planRead,
    follows.diag_eq.trans diag⟩

theorem State.resetFrame.emptied {s t : State} (frame : s.resetFrame t) :
    s.resetFrame t.clearLatches.emptyReasons := frame

theorem State.faultResetOrders_frame (s : State) : s.resetFrame s.faultResetOrders.react := by
  have orders : s.resetFrame s.clearLampFlags.detectorFaultReset := ⟨rfl, rfl, rfl, rfl, rfl, rfl, rfl⟩
  have emptied : s.resetFrame s.clearLampFlags.detectorFaultReset.clearLatches.emptyReasons :=
    orders.emptied
  by_cases clears : s.ctrl.mode = .faultFlash ∧ s.ctrl.reasons.plan = false
  · rw [State.faultResetOrders_clears clears]
    exact (emptied.follows (State.enterMode_follows _ .check)).follows (State.react_follows _)
  · rw [State.faultResetOrders_stands clears]
    exact orders.follows (State.react_follows _)

/-- What follows a fault reset's entry to CHECK (R165, R179). -/
theorem State.clears_enters {u t : State} (event : t = (State.enterMode u .check).react) :
    t.ctrl.mode = .check ∧ t.lamps.selfCheck = .running ∧ t.lamps.checkPassed = false ∧ u.follows t := by
  have self := (State.react_self (u.enterMode .check)).trans u.enterCheck_self
  subst event
  refine ⟨?mode, congrArg Prod.fst self, congrArg (fun x => x.2.2.2.2) self,
    (u.enterMode_follows .check).trans (State.react_follows _)⟩
  case mode => rw [State.enterMode_react_ctrl, State.enterMode_mode]

/-- A reset that leaves the mode: the controller moves by the end of a flash entry wait alone (R176). -/
theorem State.stands_ctrl (u : State) :
    (u.ctrl.wait = false ∨ u.ctrl.mode ≠ .running → u.react.ctrl = u.ctrl) ∧
    (u.ctrl.wait = true → u.ctrl.mode = .running → u.movingCount ≠ 0 →
      u.react.ctrl = if (State.settle 64 u.follow).movingCount = 0 then u.ctrl.flashed else u.ctrl) ∧
    (u.react.ctrl = u.ctrl ∨ u.react.ctrl = u.ctrl.flashed) :=
  ⟨fun h => h.elim State.react_ctrl_of_not_waiting State.react_ctrl_standing, State.react_waiting,
    u.react_ctrl.imp id fun h => h.2.2⟩

/-- Settles O49: the levels that are no press, then the press: its orders, and its effect by mode. -/
theorem panelFaultResetByMode : Obligations.PanelFaultResetByMode := by
  refine ⟨fun s pin held => ⟨?unsupplied, ?short, ?noPress⟩, fun s held on long released live => ?press⟩
  case unsupplied =>
    intro off
    have take := Filter.take_unsupplied off tPF s.panel.faultReset (!pin) held
    have event := State.panelFaultReset_rests (s := s) (level := !pin) (held := held)
      (.inr (by rw [take]; exact Filter.rises_stands rfl))
    rw [State.sampleFaultReset_eq, take] at event
    exact congrArg Host.Outcome.next event
  case short =>
    intro on short
    have take := Filter.take_brief (limit := tPF) on short s.panel.faultReset (!pin)
    have event := State.panelFaultReset_rests (s := s) (level := !pin) (held := held)
      (.inr (by rw [take]; exact Filter.rises_stands rfl))
    rw [State.sampleFaultReset_eq, take] at event
    exact congrArg Host.Outcome.next event
  case noPress =>
    intro on long rests
    refine congrArg Host.Outcome.next (Eq.trans (State.panelFaultReset_rests (level := !pin) ?_)
      (State.sampleFaultReset_held on (!pin) long))
    refine rests.imp id fun h => ?_
    rw [Filter.take_long (limit := tPF) on long]
    rcases h with rfl | unreleased
    · exact Filter.rises_falls rfl
    · exact Filter.rises_unreleased _ unreleased
  case press =>
    have rises : s.panel.faultReset.rises (s.panel.faultReset.take s.supplyOk tPF true held) = true := by
      rw [Filter.take_long (limit := tPF) on long, Filter.rises_iff]
      exact ⟨released, rfl⟩
    have event := State.panelFaultReset_press live rises
    rw [State.sampleFaultReset_held on true long, ← State.pressed] at event
    refine ⟨s.panelFaultReset true held, s.pressed.clearLampFlags.detectorFaultReset, rfl, ?_⟩
    generalize s.panelFaultReset true held = t at event
    generalize sampled : s.pressed = w at event ⊢
    have sticky (c : ChanId) : t.stickyOf c = ((w.lamps.channels.nth c).unLive, (w.lamps.channels.nth c).loLive) := by
      rw [event, State.react_sticky, State.faultResetOrders_sticky]
    have dets : t.dets = w.clearLampFlags.detectorFaultReset.dets := by
      rw [event, State.react_dets, State.faultResetOrders_dets]
    obtain ⟨remotes, line, cycle, peers, plan, planRead, diag⟩ := event ▸ w.faultResetOrders_frame
    subst sampled
    refine ⟨rfl, State.clearLampFlags_nth _, fun d => State.detectorFaultReset_rests,
      fun d f => State.detectorFaultReset_local, event.trans (congrArg State.react (State.faultResetOrders_eq _)),
      fun c => ⟨congrArg Prod.fst (sticky c), congrArg Prod.snd (sticky c)⟩, fun d f local_ initial => ?normal,
      remotes, line, cycle, peers, plan, planRead, diag, fun flash noPlan => ?clears, fun stands => ?stands⟩
    case normal =>
      rw [dets, State.detectorFaultReset_local (s := s.pressed.clearLampFlags) local_ initial]
      exact ⟨rfl, rfl, rfl, rfl, fun level => if_pos level, fun watched => if_neg watched⟩
    case clears =>
      have enters := event.trans (congrArg State.react (State.faultResetOrders_clears ⟨flash, noPlan⟩))
      obtain ⟨mode, selfCheck, passed, follows⟩ := State.clears_enters enters
      exact ⟨mode, follows.ctrl_firstFault_eq, follows.lamps_conflict_eq, follows.lamps_redOut_eq,
        follows.ctrl_reasons_eq, selfCheck, passed⟩
    case stands =>
      have still : ¬ (s.ctrl.mode = .faultFlash ∧ s.ctrl.reasons.plan = false) := fun clears =>
        stands.elim (fun h => h clears.1) fun h => absurd (clears.2.symm.trans h) nofun
      have orders := event.trans (congrArg State.react (State.faultResetOrders_stands still))
      have follows := State.react_follows s.pressed.clearLampFlags.detectorFaultReset
      have ctrl := State.stands_ctrl s.pressed.clearLampFlags.detectorFaultReset
      rw [← orders] at follows ctrl
      exact ⟨follows.ctrl_reasons_eq, follows.ctrl_firstFault_eq, follows.lamps_conflict_eq, follows.lamps_redOut_eq,
        ctrl⟩

end Sys2Proof.Machine
end

section
/-! PROOFS. MANUAL and ADVANCE (R102, R103, R193). -/

namespace Sys2Proof.Machine

/-! ### The filters of the two lines -/

/-- The state with another MANUAL filter. -/
def State.withManual (s : State) (f : Filter) : State := { s with panel := { s.panel with manual := f } }

/-- The state with another ADVANCE filter. -/
def State.withAdvance (s : State) (f : Filter) : State := { s with panel := { s.panel with advance := f } }

theorem State.sampleManual_eq (s : State) (level : Bool) (held : Nat) :
    s.sampleManual level held = s.withManual (s.panel.manual.take s.supplyOk tPF level held) := rfl

theorem State.sampleAdvance_eq (s : State) (level : Bool) (held : Nat) :
    s.sampleAdvance level held = s.withAdvance (s.panel.advance.take s.supplyOk tPF level held) := rfl

theorem State.sampleManual_held {s : State} (on : s.supplyOk = true) (level : Bool) {held : Nat} (long : 3125 ≤ held) :
    s.sampleManual level held = s.withManual { raw := level, time := 3125, level := some level } := by
  rw [State.sampleManual_eq, Filter.take_long (limit := tPF) on long]
  rfl

theorem State.sampleAdvance_held {s : State} (on : s.supplyOk = true) (level : Bool) {held : Nat} (long : 3125 ≤ held) :
    s.sampleAdvance level held = s.withAdvance { raw := level, time := 3125, level := some level } := by
  rw [State.sampleAdvance_eq, Filter.take_long (limit := tPF) on long]
  rfl

/-! ### MANUAL (R102) -/

theorem State.manualChange_same {s : State} {level : Bool} {held : Nat}
    (same : (s.sampleManual level held).manualFlag = s.manualFlag) :
    s.manualChange level held = s.sampleManual level held := if_pos same

theorem State.manualChange_dark {s : State} (dark : s.ctrl.mode = .dark) (level : Bool) (held : Nat) :
    s.manualChange level held = s.sampleManual level held := by
  unfold State.manualChange
  dsimp only
  rw [if_pos dark, ite_self]

theorem State.manualChange_turns {s : State} {level : Bool} {held : Nat} (live : s.ctrl.mode ≠ .dark)
    (turns : (s.sampleManual level held).manualFlag ≠ s.manualFlag) :
    s.manualChange level held = (s.sampleManual level held).arbitrate.react := by
  unfold State.manualChange
  dsimp only
  rw [if_neg turns, if_neg live]

theorem State.withManual_flag (s : State) (level : Bool) (time : Nat) :
    (s.withManual { raw := level, time := time, level := some level }).manualFlag = level := by
  cases level <;> rfl

/-! ### The next stage of the list (R103) -/

theorem nextStage_absent {l : List StageId} {t : StageId} (absent : t ∉ l) : nextStage l t = l.head? :=
  if_neg (by simpa using absent)

theorem nextStage_split {a b : List StageId} {t : StageId} (first : t ∉ a) :
    nextStage (a ++ t :: b) t = (b ++ (a ++ t :: b)).head? := by
  have passes : ∀ x ∈ a, (x != t) = true := fun x mem => bne_iff_ne.mpr fun eq => first (eq ▸ mem)
  have mem : (a ++ t :: b).contains t = true := by simp
  have from_t : (t :: b).dropWhile (· != t) = t :: b := by simp
  unfold nextStage
  rw [if_pos mem, List.dropWhile_append_of_pos passes, from_t]
  cases b <;> rfl

theorem nextStage_single (t : StageId) : nextStage [t] t = some t := nextStage_split (a := []) (b := []) nofun

/-! ### ADVANCE (R103) -/

theorem State.advancePress_rests {s : State} {level : Bool} {held : Nat}
    (rests : s.ctrl.mode = .dark ∨ s.panel.advance.rises (s.panel.advance.take s.supplyOk tPF level held) = false) :
    s.advancePress level held = s.sampleAdvance level held := by
  refine if_neg ?_
  rw [Bool.and_eq_true, Bool.not_eq_true', beq_eq_false_iff_ne]
  rcases rests with dark | level
  · exact fun h => h.2 dark
  · exact fun h => absurd (level.symm.trans h.1) nofun

theorem State.advancePress_press {s : State} {level : Bool} {held : Nat} (live : s.ctrl.mode ≠ .dark)
    (rises : s.panel.advance.rises (s.panel.advance.take s.supplyOk tPF level held) = true) :
    s.advancePress level held = (s.sampleAdvance level held).advance.react := by
  refine if_pos ?_
  rw [Bool.and_eq_true, Bool.not_eq_true', beq_eq_false_iff_ne]
  exact ⟨rises, live⟩

/-- An ADVANCE press is heard in MANUAL with no service stage and no flash entry wait (R103). -/
theorem State.advance_heard (s : State) : (s.manualFlag && s.seq.service == none && !s.ctrl.wait) = true ↔
    s.manualFlag = true ∧ s.seq.service = none ∧ s.ctrl.wait = false := by
  rw [Bool.and_eq_true, Bool.and_eq_true, beq_iff_eq, Bool.not_eq_true', and_assoc]

theorem State.advance_unheard {s : State} (unheard : ¬ (s.manualFlag = true ∧ s.seq.service = none ∧ s.ctrl.wait = false)) :
    s.advance = s := if_neg (mt s.advance_heard.mp unheard)

theorem State.advance_dwell {s : State} {t u : StageId} (st : s.seq.st = .dwell t)
    (next : nextStage s.sequence t = some u) : s.advance =
      if s.manualFlag = true ∧ s.seq.service = none ∧ s.ctrl.wait = false then
        if u = t then s else s.beginChange t u
      else s := by
  unfold State.advance
  simp only [State.advance_heard, st, next]

theorem State.advance_change {s : State} {c : Change} {u : StageId} (st : s.seq.st = .change c)
    (next : nextStage s.sequence c.toStage = some u) : s.advance =
      if s.manualFlag = true ∧ s.seq.service = none ∧ s.ctrl.wait = false then
        if c.committed = true then s else if u = c.toStage then s else s.replaceChange c u
      else s := by
  unfold State.advance
  simp only [State.advance_heard, st, next]

theorem State.advance_committed {s : State} {c : Change} (st : s.seq.st = .change c) (committed : c.committed = true) :
    s.advance = s := by
  unfold State.advance
  simp only [st, committed, if_true, ite_self]

theorem State.advance_dwell_same {s : State} {t : StageId} (st : s.seq.st = .dwell t)
    (next : nextStage s.sequence t = some t) : s.advance = s := by
  rw [State.advance_dwell st next, if_pos rfl, ite_self]

theorem State.advance_change_same {s : State} {c : Change} (st : s.seq.st = .change c)
    (next : nextStage s.sequence c.toStage = some c.toStage) : s.advance = s := by
  rw [State.advance_change st next, if_pos rfl, ite_self, ite_self]

/-- Settles O50: the two lines by their filters, then a press by the sequencer's state. -/
theorem manualAndAdvance : Obligations.ManualAndAdvance := by
  refine ⟨fun s pin held on long => ⟨fun live turns => ?turns, fun same => ?same, fun live released => ?press,
      fun dark => ?dark, fun rests => ?noPress⟩,
    fun s pin held => ⟨fun on short => ?short, fun off => ?unsupplied⟩,
    fun s => ⟨fun unheard => ?unheard, fun t => State.advance_dwell_same, fun c => State.advance_change_same,
      fun m single => ?single, fun manual free calm => ?heard⟩,
    fun l t => ⟨nextStage_absent, fun a b split first => by rw [split, nextStage_split first]⟩⟩
  case turns =>
    have sample := State.sampleManual_held on (!pin) long
    have event := State.manualChange_turns (level := !pin) (held := held) live
      (by rw [sample, State.withManual_flag, turns]; cases pin <;> nofun)
    rw [sample] at event
    exact congrArg Host.Outcome.next event
  case same =>
    have sample := State.sampleManual_held on (!pin) long
    refine congrArg Host.Outcome.next (Eq.trans (State.manualChange_same (level := !pin) ?_) sample)
    rw [sample, State.withManual_flag]
    cases pin
    · cases old : s.manualFlag with
      | false => exact absurd old same
      | true => rfl
    · cases old : s.manualFlag with
      | false => rfl
      | true => exact absurd old same
  case press =>
    have event := State.advancePress_press (level := true) (held := held) live
      (by rw [Filter.take_long (limit := tPF) on long, Filter.rises_iff]; exact ⟨released, rfl⟩)
    rw [State.sampleAdvance_held on true long] at event
    exact congrArg Host.Outcome.next event
  case dark =>
    exact congrArg Host.Outcome.next
      ((State.manualChange_dark dark (!pin) held).trans (State.sampleManual_held on (!pin) long))
  case noPress =>
    refine congrArg Host.Outcome.next (Eq.trans (State.advancePress_rests (level := !pin) ?_)
      (State.sampleAdvance_held on (!pin) long))
    refine rests.imp id fun h => ?_
    rw [Filter.take_long (limit := tPF) on long]
    rcases h with rfl | unreleased
    · exact Filter.rises_falls rfl
    · exact Filter.rises_unreleased _ unreleased
  case short =>
    have manual := Filter.take_brief (limit := tPF) on short s.panel.manual (!pin)
    have advance := Filter.take_brief (limit := tPF) on short s.panel.advance (!pin)
    have turned := State.manualChange_same (s := s) (level := !pin) (held := held)
      (by rw [State.sampleManual_eq, manual]; rfl)
    have pressed := State.advancePress_rests (s := s) (level := !pin) (held := held)
      (.inr (by rw [advance]; exact Filter.rises_stands rfl))
    rw [State.sampleManual_eq, manual] at turned
    rw [State.sampleAdvance_eq, advance] at pressed
    exact ⟨congrArg Host.Outcome.next turned, congrArg Host.Outcome.next pressed⟩
  case unsupplied =>
    have manual := Filter.take_unsupplied off tPF s.panel.manual (!pin) held
    have advance := Filter.take_unsupplied off tPF s.panel.advance (!pin) held
    have turned := State.manualChange_same (s := s) (level := !pin) (held := held)
      (by rw [State.sampleManual_eq, manual]; rfl)
    have pressed := State.advancePress_rests (s := s) (level := !pin) (held := held)
      (.inr (by rw [advance]; exact Filter.rises_stands rfl))
    rw [State.sampleManual_eq, manual] at turned
    rw [State.sampleAdvance_eq, advance] at pressed
    exact ⟨congrArg Host.Outcome.next turned, congrArg Host.Outcome.next pressed⟩
  case unheard =>
    rcases unheard with automatic | idle | service | wait
    · exact State.advance_unheard fun h => absurd (automatic.symm.trans h.1) nofun
    · exact s.advance_idle idle
    · exact State.advance_unheard fun h => service h.2.1
    · exact State.advance_unheard fun h => absurd (wait.symm.trans h.2.2) nofun
  case single =>
    rintro (st | ⟨c, st, rfl⟩)
    · exact State.advance_dwell_same st (by rw [single, nextStage_single])
    · exact State.advance_change_same st (by rw [single, nextStage_single])
  case heard =>
    refine ⟨fun t u st next other => ?_, fun c u st uncommitted next other => ?_, fun c => State.advance_committed⟩
    · rw [State.advance_dwell st next, if_pos ⟨manual, free, calm⟩, if_neg other]
    · rw [State.advance_change st next, if_pos ⟨manual, free, calm⟩, if_neg (by rw [uncommitted]; nofun), if_neg other]

end Sys2Proof.Machine
end

section
/-! PROOFS. The transfers of the plan memory, their failures and the end of the read (R172, R183, R184). -/

namespace Sys2Proof.Machine

/-! ### A failed read (R172, R177) -/

theorem State.planFault_eq (s : State) (code : Nat) : s.planFault code =
    State.react (State.enterMode { s with
      planRead := { s.planRead with
        readState := .failed, buffer := [], port := [], attempt := none, checkAge := none }
      ctrl := { s.ctrl with
        planFault := code, reasons := { s.ctrl.reasons with plan := true }
        firstFault := if s.ctrl.reasons = Ctrl.reset.reasons then some .plan else s.ctrl.firstFault } }
      .faultFlash) := by
  unfold State.planFault State.addReason
  simp only [Reasons.isEmpty_iff]
  rfl

theorem State.planFault_first (s : State) (code : Nat) :
    (s.ctrl.reasons = Ctrl.reset.reasons → (s.planFault code).ctrl.firstFault = some .plan) ∧
    (s.ctrl.reasons ≠ Ctrl.reset.reasons → (s.planFault code).ctrl.firstFault = s.ctrl.firstFault) := by
  obtain ⟨_, first, _⟩ := s.planFault_ctrl code
  rw [first]
  exact ⟨fun empty => if_pos ((Reasons.isEmpty_iff _).mpr empty), fun held => if_neg (mt (Reasons.isEmpty_iff _).mp held)⟩

/-! ### The lines of the port (R183) -/

theorem range_flatMap_eight {α : Type} (f : Nat → List α) : (List.range 8).flatMap f =
    f 0 ++ f 1 ++ f 2 ++ f 3 ++ f 4 ++ f 5 ++ f 6 ++ f 7 := by
  simp [List.range_succ]

theorem PortItem.write_phases (b : Byte) : (PortItem.write b).phases =
    ((List.range 8).flatMap fun i =>
      [⟨false, b.getLsbD (7 - i)⟩, ⟨true, b.getLsbD (7 - i)⟩, ⟨false, b.getLsbD (7 - i)⟩]) ++
    [⟨false, true⟩, ⟨true, true⟩, ⟨false, true⟩] := by
  rw [range_flatMap_eight]
  rfl

theorem PortItem.read_phases (a : Bool) : (PortItem.read a).phases =
    ((List.range 8).flatMap fun _ => [⟨false, true⟩, ⟨true, true⟩, ⟨false, true⟩]) ++
    [⟨false, !a⟩, ⟨true, !a⟩, ⟨false, !a⟩] := by
  rw [range_flatMap_eight]
  rfl

/-! ### A transfer that succeeds (R183, R184) -/

theorem State.planTransfer_done {s : State} {levels : List Bool} {bytes : List Byte} (running : s.transferring = true)
    (done : s.transferRun levels = .done bytes) : s.planTransfer levels = s.transferDone bytes :=
  ((s.transfer_rows levels running).1 bytes done).1

theorem State.transferFailure_failed {s : State} {levels : List Bool} {cause : TransferFault}
    (running : s.transferring = true) (failed : s.transferRun levels = .failed cause) :
    s.transferFailure levels = s.transferFailed := ((s.transfer_rows levels running).2 cause failed).2

theorem State.transferDone_stores {s : State} {bytes : List Byte}
    (passes : s.planRead.nextBlock ≠ 0 ∨ headerCode bytes = none) :
    s.transferDone bytes = { s with planRead := s.planRead.store bytes } := by
  unfold State.transferDone
  by_cases first : s.planRead.nextBlock = 0
  · rw [if_pos first, passes.resolve_left (not_not_intro first)]
  · exact if_neg first

theorem State.transferDone_fails {s : State} {bytes : List Byte} {code : Nat} (first : s.planRead.nextBlock = 0)
    (fails : headerCode bytes = some code) : s.transferDone bytes = s.headerFault code := by
  unfold State.transferDone
  rw [if_pos first, fails]

theorem PlanRead.store_last {r : PlanRead} {bytes : List Byte}
    (last : imageLength (r.buffer ++ bytes) ≤ r.nextBlock + 64) : r.store bytes = { r with
      buffer := (r.buffer ++ bytes).take (imageLength (r.buffer ++ bytes)), nextBlock := r.nextBlock + 64, retry := 0
      readState := .checking, port := [], attempt := none, checkAge := some 0 } := if_pos last

theorem PlanRead.store_more {r : PlanRead} {bytes : List Byte}
    (more : r.nextBlock + 64 < imageLength (r.buffer ++ bytes)) : r.store bytes = PlanRead.startTransfer { r with
      buffer := (r.buffer ++ bytes).take (imageLength (r.buffer ++ bytes)), nextBlock := r.nextBlock + 64
      retry := 0 } := if_neg (Nat.not_le.mpr more)

/-- What a stored block leaves, whether the read goes on or ends (R183, R184). -/
theorem PlanRead.store_common (r : PlanRead) (bytes : List Byte) :
    (r.store bytes).retry = 0 ∧ (r.store bytes).nextBlock = r.nextBlock + 64 ∧
    (r.store bytes).buffer = (r.buffer ++ bytes).take (imageLength (r.buffer ++ bytes)) := by
  rcases Nat.lt_or_ge (r.nextBlock + 64) (imageLength (r.buffer ++ bytes)) with more | last
  · rw [PlanRead.store_more more]
    exact ⟨rfl, rfl, rfl⟩
  · rw [PlanRead.store_last last]
    exact ⟨rfl, rfl, rfl⟩

theorem headerCode_eq (bytes : List Byte) : headerCode bytes =
    if bytes.getD 0 0 ≠ 76 ∨ bytes.getD 1 0 ≠ 82 then some 2
    else if bytes.getD 4 0 ≠ 1 then some 3
    else if 10 ≤ imageLength bytes ∧ imageLength bytes ≤ 4096 then none else some 4 := by
  have byte (i n : Nat) (small : n < 256) : byteAt bytes i ≠ n ↔ bytes.getD i 0 ≠ BitVec.ofNat 8 n := by
    rw [byteAt, Ne, Ne, BitVec.toNat_eq, BitVec.toNat_ofNat, Nat.mod_eq_of_lt small]
  unfold headerCode
  simp only [byte _ _ (show 76 < 256 by omega), byte _ _ (show 82 < 256 by omega), byte _ _ (show 1 < 256 by omega),
    within_iff]
  rfl

/-- Settles O52: the lines of the port item by item, the run of a transfer, and the block that it stores. -/
theorem transferStoresItsBlock : Obligations.TransferStoresItsBlock := by
  refine ⟨⟨rfl, rfl, rfl, PortItem.write_phases, PortItem.read_phases, fun start count => rfl, fun s => rfl⟩,
    fun s levels start count some_ port => ?run, fun levels i low => portByte_bit levels i low, fun s => rfl,
    headerCode_eq, fun s levels bytes loading reading under done => ⟨fun passes => ?stores, fun code first fails => ?fails⟩⟩
  case run =>
    rw [State.transferRun, port]
    exact portRun_transfer start count levels some_
  case stores =>
    have running := s.transferring_iff.mpr ⟨loading, reading, under⟩
    have event := (State.planTransfer_done running done).trans (State.transferDone_stores passes)
    obtain ⟨retry, nextBlock, buffer⟩ := s.planRead.store_common bytes
    refine ⟨_, congrArg Host.Outcome.next event, rfl, retry, nextBlock, buffer, fun last => ?_, fun more => ?_⟩
    · show (s.planRead.store bytes).readState = _ ∧ (s.planRead.store bytes).port = _ ∧
        (s.planRead.store bytes).checkAge = _ ∧ (s.planRead.store bytes).attempt = _
      rw [PlanRead.store_last last]
      exact ⟨rfl, rfl, rfl, rfl⟩
    · show (s.planRead.store bytes).readState = _ ∧ (s.planRead.store bytes).attempt = _ ∧
        (s.planRead.store bytes).checkAge = _ ∧
        (s.planRead.store bytes).port = transferItems _ (s.planRead.store bytes).blockSize
      rw [PlanRead.store_more more]
      exact ⟨reading, rfl, rfl, rfl⟩
  case fails =>
    have running := s.transferring_iff.mpr ⟨loading, reading, under⟩
    have event := (State.planTransfer_done running done).trans (State.transferDone_fails first fails)
    generalize stored : ({ s with planRead := { s.planRead with nextBlock := blockLength, retry := 0 } } : State) = u
    have fault : s.headerFault code = u.planFault code := by rw [← stored]; rfl
    obtain ⟨planRead, mode, _, _, plan, line, _⟩ := u.planFault_law code
    obtain ⟨reasons, _, planFault, _⟩ := u.planFault_ctrl code
    obtain ⟨empty, held⟩ := u.planFault_first code
    have effect := u.planFault_eq code
    rw [fault] at event
    subst stored
    refine ⟨_, congrArg Host.Outcome.next event, effect, ?_, ?_, ?_, ?_, mode, planFault, reasons, empty, held, plan, line⟩
    all_goals rw [planRead]; rfl

/-- Settles O53: the failed attempt, the fourth of them, and the end of the pause. -/
theorem transferRetriesAndNoMemory : Obligations.TransferRetriesAndNoMemory := by
  refine fun s levels loading reading => ⟨fun cause under failed some_ => ?retries,
    fun cause under failed none_ => ?givesUp, fun n released attempt long => ?again⟩
  case retries =>
    have event := State.transferFailure_failed (s.transferring_iff.mpr ⟨loading, reading, under⟩) failed
    exact congrArg Host.Outcome.next (event.trans (if_pos some_))
  case givesUp =>
    have event := State.transferFailure_failed (s.transferring_iff.mpr ⟨loading, reading, under⟩) failed
    have last : s.transferFailed = s.planFault 1 := if_neg (Nat.not_lt.mpr none_)
    obtain ⟨planRead, mode, _, _, plan, line, _⟩ := s.planFault_law 1
    obtain ⟨reasons, _, planFault, _⟩ := s.planFault_ctrl 1
    obtain ⟨empty, held⟩ := s.planFault_first 1
    refine ⟨_, congrArg Host.Outcome.next (event.trans last), s.planFault_eq 1, ?_, ?_, ?_, planFault, mode, reasons,
      empty, held, plan, line⟩
    all_goals rw [planRead]; rfl
  case again =>
    exact congrArg Host.Outcome.next (if_pos (s.retryDue_iff.mpr ⟨loading, reading, released, n, attempt, long⟩))

end Sys2Proof.Machine
end

section
/-! PROOFS. The checks of CHECKING and the two ends of the load (R172, R185, R190, R191). -/

namespace Sys2Proof.Machine

/-! ### The checks in their order (R185, R190) -/

theorem checkImage_crc {bytes : List Byte} (wrong : imageCrcOk bytes (imageLength bytes) = false) :
    checkImage bytes = .error 5 := by
  unfold checkImage
  dsimp only
  rw [wrong]
  rfl

theorem checkImage_chain {bytes : List Byte} {code : Nat} (crc : imageCrcOk bytes (imageLength bytes) = true)
    (chain : walkChain (imageLength bytes) ((bytes.drop 5).take (imageLength bytes - 7)) [] = .error code) :
    checkImage bytes = .error code := by
  unfold checkImage
  dsimp only
  rw [if_pos crc, chain]

theorem checkImage_missing {bytes : List Byte} {sections : List (Nat × List Byte)} {code : Nat}
    (crc : imageCrcOk bytes (imageLength bytes) = true)
    (chain : walkChain (imageLength bytes) ((bytes.drop 5).take (imageLength bytes - 7)) [] = .ok sections)
    (missing : imageOf sections = .error code) : checkImage bytes = .error code := by
  unfold checkImage
  dsimp only
  rw [if_pos crc, chain]
  dsimp only
  rw [missing]

/-- An image with all its sections is judged by its contents (R190). -/
theorem checkImage_contents {bytes : List Byte} {sections : List (Nat × List Byte)} {m : Image}
    (crc : imageCrcOk bytes (imageLength bytes) = true)
    (chain : walkChain (imageLength bytes) ((bytes.drop 5).take (imageLength bytes - 7)) [] = .ok sections)
    (image : imageOf sections = .ok m) :
    (∀ code, m.contentCode = some code → checkImage bytes = .error code) ∧
      (m.contentCode = none → checkImage bytes = .ok m.plan) := by
  unfold checkImage
  dsimp only
  rw [if_pos crc, chain]
  dsimp only
  rw [image]
  dsimp only
  exact ⟨fun code fails => by rw [fails], fun passes => by rw [passes]⟩

/-! ### The walk of the section chain (R185) -/

theorem knownTag_iff (t : Nat) : knownTag t = true ↔ 1 ≤ t ∧ t ≤ 10 := within_iff 1 10 t

theorem metTag_iff (t : Nat) (met : List (Nat × List Byte)) : metTag t met = true ↔ ∃ e ∈ met, e.1 = t := by
  simp only [metTag, List.any_eq_true, beq_iff_eq]

theorem wrongSize_unknown {t : Nat} (unknown : 10 < t) (n : Nat) : wrongSize t n = false := by
  obtain ⟨k, rfl⟩ := Nat.exists_eq_add_of_lt unknown
  rw [show 10 + k + 1 = k + 11 by omega]
  rfl

/-- The body lengths of the ten known sections (R185). -/
theorem wrongSize_known {t : Nat} (low : 1 ≤ t) (high : t ≤ 10) (n : Nat) : wrongSize t n = false ↔
    n = [0, 5, 274, 208, 288, 24, n, 360, 84, 16, 16].getD t 0 ∧ (t = 6 → 1 ≤ n ∧ n ≤ 12) := by
  have size (a : Nat) : (n != a) = false ↔ n = a := by simp
  rcases (by omega : t = 1 ∨ t = 2 ∨ t = 3 ∨ t = 4 ∨ t = 5 ∨ t = 6 ∨ t = 7 ∨ t = 8 ∨ t = 9 ∨ t = 10) with
    rfl | rfl | rfl | rfl | rfl | rfl | rfl | rfl | rfl | rfl
  -- the sequence section, tag 6, alone has a range of lengths
  rotate_left 5
  · refine (iff_of_eq (Bool.not_eq_false' (b := within 1 12 n))).trans ((within_iff 1 12 n).trans ?_)
    exact ⟨fun h => ⟨rfl, fun _ => h⟩, fun h => h.2 rfl⟩
  all_goals exact (size _).trans ⟨fun h => ⟨h, nofun⟩, And.left⟩

theorem walkChain_step {fuel : Nat} {tag lo hi : Byte} {rest : List Byte} {met : List (Nat × List Byte)} {n : Nat}
    (length : n = lo.toNat + 256 * hi.toNat) : walkChain (fuel + 1) (tag :: lo :: hi :: rest) met =
      if tag.toNat = 0 then if n = 0 ∧ rest = [] then .ok met else .error 6
      else if rest.length < n then .error 6
      else if (knownTag tag.toNat && metTag tag.toNat met) = true then .error 7
      else if wrongSize tag.toNat n = true then .error 9
      else walkChain fuel (rest.drop n) (if knownTag tag.toNat = true then met ++ [(tag.toNat, rest.take n)] else met) := by
  subst length
  rfl

theorem walkChain_short (fuel : Nat) {l : List Byte} (short : l.length < 3) (met : List (Nat × List Byte)) :
    walkChain fuel l met = .error 6 := by
  cases fuel with
  | zero => rfl
  | succ fuel =>
    match l, short with
    | [], _ => rfl
    | [_], _ => rfl
    | [_, _], _ => rfl

theorem tag_ne_zero {tag : Byte} (known : tag ≠ 0) : tag.toNat ≠ 0 := by
  intro zero
  exact known (BitVec.eq_of_toNat_eq zero)

/-! ### The ten sections (R185) -/

theorem imageOf_missing {met : List (Nat × List Byte)} {tag : Nat} (low : 1 ≤ tag) (high : tag ≤ 10)
    (absent : ∀ e ∈ met, e.1 ≠ tag) : imageOf met = .error 8 := by
  refine if_neg fun all => ?_
  have mem : tag ∈ [1, 2, 3, 4, 5, 6, 7, 8, 9, 10] := by
    simp only [List.mem_cons, List.not_mem_nil]
    omega
  obtain ⟨e, inMet, eq⟩ := (metTag_iff tag met).mp (List.all_eq_true.mp all tag mem)
  exact absent e inMet eq

theorem imageOf_full {met : List (Nat × List Byte)} (full : ∀ tag, 1 ≤ tag → tag ≤ 10 → ∃ e ∈ met, e.1 = tag) :
    imageOf met = .ok
      { station := bodyOf met 1, corridor := bodyOf met 2, groups := bodyOf met 3
        conflicts := bodyOf met 4, stages := bodyOf met 5, sequence := bodyOf met 6
        detectors := bodyOf met 7, patterns := bodyOf met 8, routes := bodyOf met 9
        signs := bodyOf met 10 } := by
  refine if_pos (List.all_eq_true.mpr fun tag mem => (metTag_iff tag met).mpr (full tag ?_ ?_)) <;>
    simp only [List.mem_cons, List.not_mem_nil, or_false] at mem <;> omega

theorem bodyOf_first {l r : List (Nat × List Byte)} {tag : Nat} {body : List Byte} (first : ∀ e ∈ l, e.1 ≠ tag) :
    bodyOf (l ++ (tag, body) :: r) tag = body := by
  have passed : l.find? (fun e => e.1 == tag) = none :=
    List.find?_eq_none.mpr fun e mem => by simpa using first e mem
  unfold bodyOf
  rw [List.find?_append, passed, List.find?_cons_of_pos (by simp)]
  rfl

/-! ### The two ends of the load (R172, R191) -/

theorem State.planValidation_passes {s : State} {p : Plan} (checking : s.checking = true)
    (passes : checkImage s.planRead.buffer = .ok p) : s.planValidation = s.planLoad p := by
  unfold State.planValidation
  rw [if_pos checking, passes]

theorem State.planValidation_fails {s : State} {code : Nat} (checking : s.checking = true)
    (fails : checkImage s.planRead.buffer = .error code) : s.planValidation = s.planFault code := by
  unfold State.planValidation
  rw [if_pos checking, fails]

theorem State.writePlan_dets (s : State) (p : Plan) (d : Fin 24) :
    (s.writePlan p).dets.nth d = { s.dets.nth d with filt := 0, level := false, initial := false } := Table.nth_tab _ d

/-- Settles O54: the checks in order, the chain section by section, and the two ends of the load. -/
theorem planValidationEndsTheLoad : Obligations.PlanValidationEndsTheLoad := by
  refine ⟨fun bytes body => ⟨rfl, checkImage_crc, fun crc eq => ?contents⟩,
    fun fuel tag lo hi rest sections n length => ⟨fun last => ?last, fun known short => ?bad, fun known room unknown => ?skip,
      fun known room low => ⟨fun met => ?duplicate, fun unmet => ?takes⟩⟩,
    fun fuel l sections short => walkChain_short fuel short sections,
    fun sections => ⟨fun ⟨tag, low, high, absent⟩ => imageOf_missing low high absent, imageOf_full,
      fun l r tag body split first => by rw [split, bodyOf_first first]⟩,
    fun s loading checking => ⟨fun p passes => ?loads, fun code fails => ?faults⟩⟩
  case contents =>
    subst eq
    exact ⟨fun code chain => checkImage_chain crc chain, fun sections chain =>
      ⟨fun code missing => checkImage_missing crc chain missing, fun m image => checkImage_contents crc chain image⟩⟩
  case last =>
    rw [walkChain_step length, if_pos (by rw [last]; rfl)]
  case bad =>
    rw [walkChain_step length, if_neg (tag_ne_zero known), if_pos short]
  case skip =>
    have unknownTag : knownTag tag.toNat = false := by
      rw [Bool.eq_false_iff, Ne, knownTag_iff]
      omega
    rw [walkChain_step length, if_neg (tag_ne_zero known), if_neg (Nat.not_lt.mpr room), unknownTag,
      wrongSize_unknown unknown]
    rfl
  case duplicate =>
    have knownTag : knownTag tag.toNat = true :=
      (knownTag_iff _).mpr ⟨Nat.one_le_iff_ne_zero.mpr (tag_ne_zero known), low⟩
    rw [walkChain_step length, if_neg (tag_ne_zero known), if_neg (Nat.not_lt.mpr room), knownTag,
      (metTag_iff _ _).mpr met]
    rfl
  case takes =>
    have high : 1 ≤ tag.toNat := Nat.one_le_iff_ne_zero.mpr (tag_ne_zero known)
    have knownTag : knownTag tag.toNat = true := (knownTag_iff _).mpr ⟨high, low⟩
    have unmetTag : metTag tag.toNat sections = false := by
      rw [Bool.eq_false_iff, Ne, metTag_iff]
      rintro ⟨e, mem, eq⟩
      exact unmet e mem eq
    rw [walkChain_step length, if_neg (tag_ne_zero known), if_neg (Nat.not_lt.mpr room), knownTag, unmetTag,
      if_neg nofun, if_pos rfl]
    by_cases right : wrongSize tag.toNat n = false
    · rw [if_neg (by rw [right]; nofun), if_pos ((wrongSize_known high low n).mp right)]
    · rw [if_pos (by simpa using right), if_neg (mt (wrongSize_known high low n).mpr right)]
  case loads =>
    have event := State.planValidation_passes (s.checking_iff.mpr ⟨loading, checking⟩) passes
    obtain ⟨mode, selfCheck, passed, follows⟩ := State.clears_enters (u := s.writePlan p) (t := s.planLoad p) rfl
    have peers : (s.planLoad p).peers = s.peers.upd p.station fun e => { e with presence := .self } := follows.peers_eq
    have line : (s.planLoad p).line = { s.line with st := .listen, listenCount := 0 } := follows.line_eq
    refine ⟨_, congrArg Host.Outcome.next event, rfl, follows.plan_eq, congrArg PlanRead.readState follows.planRead_eq,
      congrArg PlanRead.buffer follows.planRead_eq, mode, congrArg Line.st line, congrArg Line.listenCount line,
      ?self, fun k other => ?peer, congrArg Cycle.startHold follows.cycle_eq, selfCheck, passed, fun d => ?det⟩
    case self => rw [peers, Table.nth_upd_self]
    case peer => rw [peers, Table.nth_upd_ne _ _ (Ne.symm other)]
    case det =>
      rw [follows.dets_eq, State.writePlan_dets]
      exact ⟨rfl, rfl⟩
  case faults =>
    have event := State.planValidation_fails (s.checking_iff.mpr ⟨loading, checking⟩) fails
    obtain ⟨planRead, mode, _, _, plan, line, peers, cycle, dets⟩ := s.planFault_law code
    obtain ⟨reasons, _, planFault, _⟩ := s.planFault_ctrl code
    obtain ⟨empty, held⟩ := s.planFault_first code
    exact ⟨_, congrArg Host.Outcome.next event, s.planFault_eq code, plan, congrArg PlanRead.readState planRead,
      congrArg PlanRead.buffer planRead, mode, planFault, reasons, empty, held, line, peers, cycle, dets⟩

end Sys2Proof.Machine
end

section
/-! PROOFS. The contents of a plan image and its content checks (R188, R190). -/

namespace Sys2Proof.Machine

/-! ### Fields (R188) -/

theorem setAt_has (l : List Byte) (i : Nat) (g : GroupId) : BitSet.has (setAt l i) g =
    if g.val < 8 then (l.getD i 0).getLsbD g.val else (l.getD (i + 1) 0).getLsbD (g.val - 8) :=
  BitVec.getLsbD_append

theorem numbered_eq_some {n b : Nat} {i : Fin n} : numbered n b = some i ↔ i.val + 1 = b := by
  unfold numbered
  split
  · rename_i inRange
    rw [Option.some.injEq, Fin.ext_iff]
    dsimp only
    omega
  · rename_i outside
    have := i.isLt
    exact ⟨nofun, fun eq => absurd ⟨by omega, by omega⟩ outside⟩

theorem numbered_isSome {n b : Nat} : (numbered n b).isSome = true ↔ 1 ≤ b ∧ b ≤ n := by
  unfold numbered
  split <;> simp_all

theorem exists_numbered {n b : Nat} : (1 ≤ b ∧ b ≤ n) ↔ ∃ i : Fin n, i.val + 1 = b := by
  rw [← numbered_isSome, Option.isSome_iff_exists]
  simp only [numbered_eq_some]

theorem numbered_eq_none {n b : Nat} : numbered n b = none ↔ ¬ (1 ≤ b ∧ b ≤ n) := by
  rw [← numbered_isSome, Option.not_isSome_iff_eq_none]

namespace Image

variable (m : Image)

theorem isUsed_iff (g : GroupId) : m.isUsed g = true ↔ m.kindRaw g = 0 ∨ m.kindRaw g = 1 := by
  simp only [isUsed, isVehicle, isWalk, Bool.or_eq_true, beq_iff_eq]

theorem isVehicle_iff (g : GroupId) : m.isVehicle g = true ↔ m.kindRaw g = 0 := beq_iff_eq

theorem isWalk_iff (g : GroupId) : m.isWalk g = true ↔ m.kindRaw g = 1 := beq_iff_eq

theorem remoteUsed_iff (r : RemoteId) : m.remoteUsed r = true ↔ m.remoteSource r ≠ 255 := bne_iff_ne

theorem routePasses_iff (n : RouteId) : m.routePasses n = true ↔
    ∃ x : StationId, x.val = m.stationNo ∧ m.distRaw n x ≠ 65535 := by
  simp only [routePasses, List.any_eq_true, List.mem_finRange, true_and, Bool.and_eq_true, beq_iff_eq, bne_iff_ne]

theorem sequenceList_numbers (inRange : ∀ b ∈ m.sequence, 1 ≤ b.toNat ∧ b.toNat ≤ 12) :
    m.sequenceList.map (fun t => t.val + 1) = m.sequence.map BitVec.toNat := by
  unfold sequenceList
  generalize m.sequence = bytes at inRange
  induction bytes with
  | nil => rfl
  | cons b bytes ih =>
    obtain ⟨t, eq⟩ := exists_numbered.mp (inRange b (List.mem_cons_self ..))
    rw [List.filterMap_cons_some (f := fun b : Byte => numbered 12 b.toNat) (numbered_eq_some.mpr eq), List.map_cons, List.map_cons, eq,
      ih fun x mem => inRange x (List.mem_cons_of_mem _ mem)]

theorem heldStages_cons {main : StageId} {rest : List StageId} (list : m.sequenceList = main :: rest) :
    m.heldStages = rest.filter fun t => t != main := by
  unfold heldStages
  rw [list]

/-- The largest clearance time as one maximum over the pairs of groups. -/
theorem largestIG_eq : m.largestIG =
    ((List.finRange 16).flatMap fun a => (List.finRange 16).map fun b => (a, b)).foldl
      (fun x q => if (!(m.igRaw q.1 q.2 == 255)) = true then max x (m.igRaw q.1 q.2) else x) 0 := by
  simp only [largestIG, List.foldl_flatMap, List.foldl_map, Bool.not_eq_true', beq_eq_false_iff_ne, ne_eq, ite_not,
    beq_iff_eq]

theorem mem_pairs (a b : GroupId) :
    (a, b) ∈ (List.finRange 16).flatMap fun a => (List.finRange 16).map fun b => (a, b) := by simp

theorem largestIG_law : (∀ a b, m.igRaw a b ≠ 255 → m.igRaw a b ≤ m.largestIG) ∧
    (m.largestIG = 0 ∨ ∃ a b, m.igRaw a b ≠ 255 ∧ m.igRaw a b = m.largestIG) := by
  obtain ⟨_, upper, reached⟩ := foldl_max (fun q : GroupId × GroupId => !(m.igRaw q.1 q.2 == 255))
    (fun q => m.igRaw q.1 q.2) ((List.finRange 16).flatMap fun a => (List.finRange 16).map fun b => (a, b)) 0
  rw [largestIG_eq]
  refine ⟨fun a b held => upper (a, b) (mem_pairs a b) (by simpa using held), reached.imp id ?_⟩
  rintro ⟨⟨a, b⟩, _, held, eq⟩
  exact ⟨a, b, by simpa using held, eq⟩

theorem largestCLR_law : (∀ g, m.isUsed g = true → m.tCLR g ≤ m.largestCLR) ∧
    (m.largestCLR = 0 ∨ ∃ g, m.isUsed g = true ∧ m.tCLR g = m.largestCLR) := by
  obtain ⟨_, upper, reached⟩ := foldl_max m.isUsed m.tCLR (List.finRange 16) 0
  refine ⟨fun g => upper g (List.mem_finRange g), reached.imp id ?_⟩
  rintro ⟨g, _, used, eq⟩
  exact ⟨g, used, eq⟩

end Image

/-! ### The content checks in code order (R190) -/

/-- The code of the first check that fails, the codes counted from `base`. -/
def firstCode : Nat → List Bool → Option Nat
  | _, [] => none
  | base, ok :: l => if (!ok) = true then some base else firstCode (base + 1) l

theorem firstCode_eq (base : Nat) (l : List Bool) :
    firstCode base l = (l.findIdx? fun ok => !ok).map (· + base) := by
  induction l generalizing base with
  | nil => rfl
  | cons ok l ih =>
    rw [firstCode, List.findIdx?_cons, ih]
    cases ok
    · exact congrArg some (Nat.zero_add base).symm
    · simp only [Bool.not_true, Bool.false_eq_true, if_false, Option.map_map]
      congr 1
      funext i
      simp only [Function.comp_apply]
      omega

theorem Image.contentCode_eq (m : Image) : m.contentCode =
    ([m.valueRange, m.timerRange, m.walkGroups, m.conflictMatrix, m.clearanceTable, m.stageContent, m.sequenceOk,
      m.allRedLong, m.releasePoint, m.forceOffOrder, m.cycleLong, m.detectorLists, m.claimRoutes, m.remoteOthers,
      m.routeStages, m.signSources].findIdx? (fun ok => !ok)).map (· + 10) := by
  rw [← firstCode_eq]
  rfl

/-! ### Each content check (R190) -/

namespace Image

variable (m : Image)

theorem detRoute_isSome (d : LocalId) : (m.detRoute d).isSome = true ↔ 1 ≤ m.detByte d 9 ∧ m.detByte d 9 ≤ 8 :=
  numbered_isSome

theorem detRoute_eq_some {d : LocalId} {n : RouteId} : m.detRoute d = some n ↔ n.val + 1 = m.detByte d 9 :=
  numbered_eq_some

/-- The kind of a local detector by its byte. -/
theorem detKind_eq (d : LocalId) : m.detKind d =
    if m.detByte d 0 = 1 then some .presence else if m.detByte d 0 = 2 then some .pulse
    else if m.detByte d 0 = 3 then some .button else if m.detByte d 0 = 4 then some .claim
    else if m.detByte d 0 = 5 then some .checkout else none := by
  unfold detKind
  split <;> simp_all

/-- The source of a sign by its two bytes. -/
theorem signSource_eq (k : SignId) : m.signSource k =
    if byteAt m.signs (2 * k.val) = 0 then some .none
    else if byteAt m.signs (2 * k.val) = 1 then (numbered 16 (byteAt m.signs (2 * k.val + 1))).map .groupGreen
    else if byteAt m.signs (2 * k.val) = 2 then (numbered 16 (byteAt m.signs (2 * k.val + 1))).map .groupNotRed
    else if byteAt m.signs (2 * k.val) = 3 then (numbered 16 (byteAt m.signs (2 * k.val + 1))).map .callWaiting
    else if byteAt m.signs (2 * k.val) = 4 then (numbered 8 (byteAt m.signs (2 * k.val + 1))).map .claimServing
    else if byteAt m.signs (2 * k.val) = 5 then some .claimServingAny
    else if byteAt m.signs (2 * k.val) = 6 then some .flashing else none := by
  unfold signSource
  dsimp only
  split <;> simp_all

theorem detectorValues_iff (d : LocalId) : m.detectorValues d = true ↔ m.detByte d 0 ≤ 5 ∧
    (m.detByte d 0 = 4 ∨ m.detByte d 0 = 5 → 1 ≤ m.detByte d 9 ∧ m.detByte d 9 ≤ 8) ∧
    (m.detByte d 0 = 4 → m.detByte d 10 ≤ 1) := by
  unfold detectorValues
  rw [detKind_eq]
  generalize m.detByte d 0 = kind
  rcases Nat.lt_or_ge 5 kind with beyond | known
  · repeat rw [if_neg (by omega)]
    rw [decide_eq_false (by omega)]
    exact ⟨nofun, fun h => by omega⟩
  · rcases (by omega : kind = 0 ∨ kind = 1 ∨ kind = 2 ∨ kind = 3 ∨ kind = 4 ∨ kind = 5) with rfl | rfl | rfl | rfl | rfl | rfl <;> simp [detRoute_isSome]

theorem remoteValues_iff (r : RemoteId) : m.remoteValues r = true ↔ (m.remoteSource r ≠ 255 → m.remoteSource r ≤ 15 ∧
    1 ≤ byteAt m.detectors (264 + 6 * r.val + 1) ∧ byteAt m.detectors (264 + 6 * r.val + 1) ≤ 24) := by
  unfold remoteValues remoteInput
  rw [Bool.or_eq_true, Bool.and_eq_true, decide_eq_true_eq, numbered_isSome, Bool.not_eq_true', ← Bool.not_eq_true,
    remoteUsed_iff, Decidable.imp_iff_not_or]

theorem patternValues_iff (i : Fin 3) : m.patternValues i = true ↔ (400 ≤ m.cycle i ∧ m.cycle i ≤ 2400) ∧
    m.ofs i < m.cycle i ∧ (1 ≤ m.pREL i ∧ m.pREL i < m.cycle i) ∧
    ∀ t ∈ m.heldStages, 1 ≤ m.pFO i t ∧ m.pFO i t < m.cycle i := by
  unfold patternValues
  simp only [Bool.and_eq_true, within_iff, decide_eq_true_eq, List.all_eq_true, and_assoc]
  constructor
  · rintro ⟨low, high, ofs, rel, below, points⟩
    exact ⟨low, high, ofs, rel, by omega, fun t mem => ⟨(points t mem).1, by have := points t mem; omega⟩⟩
  · rintro ⟨low, high, ofs, rel, below, points⟩
    exact ⟨low, high, ofs, rel, by omega, fun t mem => ⟨(points t mem).1, by have := points t mem; omega⟩⟩

theorem signSource_isSome (j : SignId) : (m.signSource j).isSome = true ↔ byteAt m.signs (2 * j.val) ≤ 6 ∧
    (1 ≤ byteAt m.signs (2 * j.val) → byteAt m.signs (2 * j.val) ≤ 3 →
      1 ≤ byteAt m.signs (2 * j.val + 1) ∧ byteAt m.signs (2 * j.val + 1) ≤ 16) ∧
    (byteAt m.signs (2 * j.val) = 4 → 1 ≤ byteAt m.signs (2 * j.val + 1) ∧ byteAt m.signs (2 * j.val + 1) ≤ 8) := by
  rw [signSource_eq]
  generalize byteAt m.signs (2 * j.val) = source
  rcases Nat.lt_or_ge 6 source with beyond | known
  · repeat rw [if_neg (by omega)]
    exact ⟨nofun, fun h => by omega⟩
  · rcases (by omega : source = 0 ∨ source = 1 ∨ source = 2 ∨ source = 3 ∨ source = 4 ∨ source = 5 ∨ source = 6) with rfl | rfl | rfl | rfl | rfl | rfl | rfl <;> simp [numbered_isSome]

theorem valueRange_iff : m.valueRange = true ↔ m.stationNo ≤ 15 ∧
    (∀ i, (400 ≤ m.cycle i ∧ m.cycle i ≤ 2400) ∧ m.ofs i < m.cycle i ∧ (1 ≤ m.pREL i ∧ m.pREL i < m.cycle i) ∧
      ∀ t ∈ m.heldStages, 1 ≤ m.pFO i t ∧ m.pFO i t < m.cycle i) ∧
    (∀ g, m.kindRaw g ≤ 2 ∧ (m.kindRaw g ≠ 2 → m.aspectRaw g ≤ 2)) ∧
    (∀ b ∈ m.sequence, 1 ≤ b.toNat ∧ b.toNat ≤ 12) ∧
    (∀ d, m.detByte d 0 ≤ 5 ∧
      (m.detByte d 0 = 4 ∨ m.detByte d 0 = 5 → 1 ≤ m.detByte d 9 ∧ m.detByte d 9 ≤ 8) ∧
      (m.detByte d 0 = 4 → m.detByte d 10 ≤ 1)) ∧
    (∀ r, m.remoteSource r ≠ 255 → m.remoteSource r ≤ 15 ∧ 1 ≤ byteAt m.detectors (264 + 6 * r.val + 1) ∧
      byteAt m.detectors (264 + 6 * r.val + 1) ≤ 24) ∧
    (∀ n, m.routePasses n = true → m.routeStageRaw n ≤ 12) ∧
    ∀ j : SignId, byteAt m.signs (2 * j.val) ≤ 6 ∧
      (1 ≤ byteAt m.signs (2 * j.val) → byteAt m.signs (2 * j.val) ≤ 3 →
        1 ≤ byteAt m.signs (2 * j.val + 1) ∧ byteAt m.signs (2 * j.val + 1) ≤ 16) ∧
      (byteAt m.signs (2 * j.val) = 4 →
        1 ≤ byteAt m.signs (2 * j.val + 1) ∧ byteAt m.signs (2 * j.val + 1) ≤ 8) := by
  have kinds (g : GroupId) : (decide (m.kindRaw g ≤ 2) && (!m.isUsed g || decide (m.aspectRaw g ≤ 2))) = true ↔
      m.kindRaw g ≤ 2 ∧ (m.kindRaw g ≠ 2 → m.aspectRaw g ≤ 2) := by
    rw [Bool.and_eq_true, decide_eq_true_eq, Bool.or_eq_true, decide_eq_true_eq, Bool.not_eq_true', ← Bool.not_eq_true,
      isUsed_iff]
    omega
  have stages (n : RouteId) : (!m.routePasses n || decide (m.routeStageRaw n ≤ 12)) = true ↔
      (m.routePasses n = true → m.routeStageRaw n ≤ 12) := by
    rw [Bool.or_eq_true, decide_eq_true_eq, Bool.not_eq_true', ← Bool.not_eq_true, Decidable.imp_iff_not_or]
  unfold valueRange
  simp only [Bool.and_eq_true, decide_eq_true_eq, allFin_iff, patternValues_iff, kinds, List.all_eq_true,
    numbered_isSome, detectorValues_iff, remoteValues_iff, stages, signSource_isSome, and_assoc]

theorem groupTimes_iff (g : GroupId) : m.groupTimes g = true ↔
    (m.kindRaw g = 0 → m.tPRE g ≤ 30 ∧ (40 ≤ m.tMIN g ∧ m.tMIN g ≤ 600) ∧ (100 ≤ m.tMAX g ∧ m.tMAX g ≤ 1200) ∧
      (10 ≤ m.tGAP g ∧ m.tGAP g ≤ 99) ∧ (30 ≤ m.tCLR g ∧ m.tCLR g ≤ 60) ∧ m.tMIN g ≤ m.tMAX g) ∧
    (m.kindRaw g = 1 → m.tPRE g ≤ 30 ∧ (40 ≤ m.tMIN g ∧ m.tMIN g ≤ 300) ∧ 40 ≤ m.tCLR g ∧ m.tCLR g ≤ 300) := by
  unfold groupTimes
  by_cases vehicle : m.kindRaw g = 0
  · rw [if_pos ((m.isVehicle_iff g).mpr vehicle)]
    simp only [Bool.and_eq_true, within_iff, decide_eq_true_eq, Nat.zero_le, true_and, and_assoc, vehicle,
      forall_const, Nat.zero_ne_one, false_implies, and_true]
  · rw [if_neg (mt (m.isVehicle_iff g).mp vehicle)]
    by_cases walk : m.kindRaw g = 1
    · rw [if_pos ((m.isWalk_iff g).mpr walk)]
      simp only [Bool.and_eq_true, within_iff, Nat.zero_le, true_and, and_assoc, walk, forall_const, Nat.one_ne_zero,
        false_implies]
    · rw [if_neg (mt (m.isWalk_iff g).mp walk)]
      simp only [vehicle, walk, false_implies, and_self]

theorem detectorTimes_iff (d : LocalId) : m.detectorTimes d = true ↔ (1 ≤ m.detByte d 0 → m.detByte d 0 ≤ 5 →
    m.detByte d 1 ≤ 25 ∧ (1 ≤ m.detByte d 7 ∧ m.detByte d 7 ≤ 60) ∧ m.detByte d 8 ≤ 24) := by
  have absent : (m.detKind d).isNone = true ↔ ¬ (1 ≤ m.detByte d 0 ∧ m.detByte d 0 ≤ 5) := by
    rw [detKind_eq]
    generalize m.detByte d 0 = kind
    rcases Nat.lt_or_ge 5 kind with beyond | known
    · repeat rw [if_neg (by omega)]
      exact ⟨fun _ => by omega, fun _ => rfl⟩
    · rcases (by omega : kind = 0 ∨ kind = 1 ∨ kind = 2 ∨ kind = 3 ∨ kind = 4 ∨ kind = 5) with rfl | rfl | rfl | rfl | rfl | rfl <;> simp
  unfold detectorTimes
  rw [Bool.or_eq_true, absent, ← Decidable.imp_iff_not_or, and_imp]
  simp only [Bool.and_eq_true, within_iff, Nat.zero_le, true_and, and_assoc]

theorem timerRange_iff : m.timerRange = true ↔ (50 ≤ m.tSF ∧ m.tSF ≤ 600) ∧ (20 ≤ m.tAR ∧ m.tAR ≤ 100) ∧
    (∀ g,
      (m.kindRaw g = 0 → m.tPRE g ≤ 30 ∧ (40 ≤ m.tMIN g ∧ m.tMIN g ≤ 600) ∧ (100 ≤ m.tMAX g ∧ m.tMAX g ≤ 1200) ∧
        (10 ≤ m.tGAP g ∧ m.tGAP g ≤ 99) ∧ (30 ≤ m.tCLR g ∧ m.tCLR g ≤ 60) ∧ m.tMIN g ≤ m.tMAX g) ∧
      (m.kindRaw g = 1 → m.tPRE g ≤ 30 ∧ (40 ≤ m.tMIN g ∧ m.tMIN g ≤ 300) ∧ 40 ≤ m.tCLR g ∧ m.tCLR g ≤ 300)) ∧
    (∀ a b, m.igRaw a b ≠ 255 → m.igRaw a b ≤ 150) ∧
    (∀ d, 1 ≤ m.detByte d 0 → m.detByte d 0 ≤ 5 →
      m.detByte d 1 ≤ 25 ∧ (1 ≤ m.detByte d 7 ∧ m.detByte d 7 ≤ 60) ∧ m.detByte d 8 ≤ 24) ∧
    (∀ n k, m.distRaw n k ≠ 65535 → m.distRaw n k ≤ 255) ∧ (∀ n, m.lead n ≤ 60) ∧
    ∀ q, (10 ≤ m.life q ∧ m.life q ≤ 255) ∧ 5 ≤ m.hold q ∧ m.hold q ≤ 60 := by
  have atMost (x absent bound : Nat) : (x == absent || within 0 bound x) = true ↔ (x ≠ absent → x ≤ bound) := by
    rw [Bool.or_eq_true, beq_iff_eq, within_iff, Decidable.imp_iff_not_or, Decidable.not_not]
    simp only [Nat.zero_le, true_and]
  have priorities : ([Priority.emergency, .transit].all fun q => within 10 255 (m.life q) && within 5 60 (m.hold q)) =
      true ↔ ∀ q, (10 ≤ m.life q ∧ m.life q ≤ 255) ∧ 5 ≤ m.hold q ∧ m.hold q ≤ 60 := by
    simp only [List.all_eq_true, Bool.and_eq_true, within_iff]
    exact ⟨fun all q => all q (by cases q <;> simp), fun all q _ => all q⟩
  unfold timerRange
  simp only [Bool.and_eq_true, priorities, within_iff, allFin_iff, groupTimes_iff, atMost, detectorTimes_iff,
    Nat.zero_le, true_and, and_assoc]

theorem walkGroups_iff : m.walkGroups = true ↔ ∀ g, m.kindRaw g = 1 → m.tPRE g = 0 ∧ m.aspectRaw g ≠ 0 := by
  simp only [walkGroups, allFin_iff, Bool.or_eq_true, Bool.not_eq_true', ← Bool.not_eq_true, isWalk_iff,
    Bool.and_eq_true, beq_iff_eq, bne_iff_ne, Decidable.imp_iff_not_or]

theorem conflictMatrix_iff : m.conflictMatrix = true ↔ ∀ a b, m.conflict a b = true →
    m.conflict b a = true ∧ a ≠ b ∧ m.isUsed a = true ∧ m.isUsed b = true := by
  simp only [conflictMatrix, allFin_iff, Bool.or_eq_true, Bool.not_eq_true', ← Bool.not_eq_true, Bool.and_eq_true,
    bne_iff_ne, Decidable.imp_iff_not_or, and_assoc]

theorem clearanceTable_iff : m.clearanceTable = true ↔ ∀ a b, m.igRaw a b ≠ 255 ↔ m.conflict a b = true := by
  have pair (a b : GroupId) : ((m.igRaw a b != 255) == m.conflict a b) = true ↔
      (m.igRaw a b ≠ 255 ↔ m.conflict a b = true) := by
    rw [beq_iff_eq, Bool.eq_iff_iff, bne_iff_ne]
  simp only [clearanceTable, allFin_iff, pair]

theorem stageContent_iff : m.stageContent = true ↔ ∀ t a, BitSet.has (m.stageSet t) a = true →
    m.isUsed a = true ∧ ∀ b, BitSet.has (m.stageSet t) b = true → m.conflict a b = false := by
  simp only [stageContent, allFin_iff, Bool.or_eq_true, Bool.not_eq_true', Bool.and_eq_true, Bool.and_eq_false_iff,
    Decidable.imp_iff_not_or, Bool.not_eq_true]

theorem sequenceOk_iff : m.sequenceOk = true ↔ m.sequenceList.Nodup ∧ ∀ t ∈ m.sequenceList, m.stageSet t ≠ 0 := by
  simp only [sequenceOk, Bool.and_eq_true, Bool.not_eq_true', repeats_eq_false, List.all_eq_true, bne_iff_ne,
    beq_eq_false_iff_ne]
  exact Iff.rfl

theorem allRedLong_iff : m.allRedLong = true ↔ m.largestIG ≤ m.tAR := decide_eq_true_iff

theorem releasePoint_iff : m.releasePoint = true ↔ ∀ i, ∀ t ∈ m.heldStages, m.pREL i < m.pFO i t := by
  simp only [releasePoint, allFin_iff, List.all_eq_true, decide_eq_true_eq]

theorem rising_iff (l : List Nat) : rising l = true ↔ l.Pairwise (· < ·) := by
  induction l with
  | nil => simp [rising]
  | cons a l ih =>
    cases l with
    | nil => simp [rising]
    | cons b l =>
      rw [rising, Bool.and_eq_true, decide_eq_true_eq, ih, List.pairwise_cons (a := a)]
      refine and_congr_left fun tail => ⟨fun first x member => ?_, fun all => all b List.mem_cons_self⟩
      rcases List.mem_cons.mp member with rfl | member
      · exact first
      · exact Nat.lt_trans first (List.rel_of_pairwise_cons tail member)

theorem forceOffOrder_iff : m.forceOffOrder = true ↔
    ∀ i, m.heldStages.Pairwise fun t u => m.pFO i t < m.pFO i u := by
  simp only [forceOffOrder, allFin_iff, rising_iff, List.pairwise_map]

theorem cycleLong_iff : m.cycleLong = true ↔ ∀ i t, m.heldStages.getLast? = some t →
    m.pFO i t + m.largestCLR + m.largestIG ≤ m.cycle i := by
  rw [cycleLong, allFin_iff]
  refine forall_congr' fun i => ?_
  cases m.heldStages.getLast? with
  | none => exact ⟨fun _ => nofun, fun _ => rfl⟩
  | some t => simp only [decide_eq_true_eq, Option.some.injEq, forall_eq']

theorem listOk_iff (l : GroupSet) : m.listOk l = true ↔ ∀ g, BitSet.has l g = true → m.isUsed g = true := by
  simp only [listOk, allFin_iff, Bool.or_eq_true, Bool.not_eq_true', ← Bool.not_eq_true, Decidable.imp_iff_not_or]

theorem listsOk_iff (l k : GroupSet) : (m.listOk l && m.listOk k) = true ↔
    ∀ g, BitSet.has l g = true ∨ BitSet.has k g = true → m.isUsed g = true := by
  rw [Bool.and_eq_true, listOk_iff, listOk_iff]
  exact ⟨fun h g has => has.elim (h.1 g) (h.2 g), fun h => ⟨fun g has => h g (.inl has), fun g has => h g (.inr has)⟩⟩

theorem detectorLists_iff : m.detectorLists = true ↔
    (∀ d,
      (1 ≤ m.detByte d 0 → m.detByte d 0 ≤ 3 → ∀ g,
        BitSet.has (m.detCalls d) g = true ∨ BitSet.has (m.detExtends d) g = true → m.isUsed g = true) ∧
      (m.detByte d 0 = 4 ∨ m.detByte d 0 = 5 → m.detCalls d = 0 ∧ m.detExtends d = 0)) ∧
    ∀ r, m.remoteSource r ≠ 255 → ∀ g,
      BitSet.has (m.remoteCalls r) g = true ∨ BitSet.has (m.remoteExtends r) g = true → m.isUsed g = true := by
  rw [detectorLists, Bool.and_eq_true, allFin_iff, allFin_iff]
  refine and_congr (forall_congr' fun d => ?_) (forall_congr' fun r => ?_)
  · rw [detKind_eq]
    generalize m.detByte d 0 = kind
    rcases Nat.lt_or_ge 5 kind with beyond | known
    · repeat rw [if_neg (by omega)]
      exact ⟨fun _ => ⟨fun _ _ => by omega, fun _ => by omega⟩, fun _ => rfl⟩
    · rcases (by omega : kind = 0 ∨ kind = 1 ∨ kind = 2 ∨ kind = 3 ∨ kind = 4 ∨ kind = 5) with rfl | rfl | rfl | rfl | rfl | rfl
      · simp
      -- CLAIM and CHECKOUT hold no lists, and the three kinds before them do
      rotate_left 3
      · simp
      · simp
      all_goals exact ⟨fun lists => ⟨fun _ _ => (m.listsOk_iff _ _).mp lists, fun h => by omega⟩,
        fun lists => (m.listsOk_iff _ _).mpr (lists.1 (by omega) (by omega))⟩
  · rw [Bool.or_eq_true, listsOk_iff, Bool.not_eq_true', ← Bool.not_eq_true, remoteUsed_iff, Decidable.imp_iff_not_or]

theorem claimRoutes_iff : m.claimRoutes = true ↔ ∀ d, m.detByte d 0 = 4 →
    ∃ n : RouteId, n.val + 1 = m.detByte d 9 ∧ m.routePasses n = true := by
  rw [claimRoutes, allFin_iff]
  refine forall_congr' fun d => ?_
  rw [detKind_eq]
  generalize m.detByte d 0 = kind
  rcases Nat.lt_or_ge 5 kind with beyond | known
  · repeat rw [if_neg (by omega)]
    exact ⟨fun _ h => by omega, fun _ => rfl⟩
  · rcases (by omega : kind = 0 ∨ kind = 1 ∨ kind = 2 ∨ kind = 3 ∨ kind = 4 ∨ kind = 5) with rfl | rfl | rfl | rfl | rfl | rfl <;> simp [Option.any_eq_true, detRoute_eq_some]

theorem remoteOthers_iff : m.remoteOthers = true ↔ ∀ r, m.remoteSource r ≠ 255 → m.remoteSource r ≠ m.stationNo := by
  simp only [remoteOthers, allFin_iff, Bool.or_eq_true, Bool.not_eq_true', ← Bool.not_eq_true, remoteUsed_iff,
    bne_iff_ne, Decidable.imp_iff_not_or]

theorem detKind_checkout (d : LocalId) : m.detKind d = some .checkout ↔ m.detByte d 0 = 5 := by
  rw [detKind_eq]
  repeat' split
  all_goals simp_all

theorem checkoutOk_iff (n : RouteId) : m.checkoutOk n = true ↔ m.routeCheckoutRaw n = 0 ∨
    ∃ d : LocalId, d.val + 1 = m.routeCheckoutRaw n ∧ m.detByte d 0 = 5 ∧ m.detByte d 9 = n.val + 1 := by
  rw [checkoutOk, Bool.or_eq_true, beq_iff_eq]
  refine or_congr_right ?_
  cases number : numbered 24 (m.routeCheckoutRaw n) with
  | none =>
    refine ⟨nofun, fun ⟨d, eq, _⟩ => ?_⟩
    rw [numbered_eq_some.mpr eq] at number
    cases number
  | some d =>
    have eq := numbered_eq_some.mp number
    simp only [Bool.and_eq_true, beq_iff_eq, detKind_checkout, detRoute_eq_some]
    constructor
    · rintro ⟨kind, route⟩
      exact ⟨d, eq, kind, route.symm⟩
    · rintro ⟨e, other, kind, route⟩
      obtain rfl : e = d := Fin.ext (by omega)
      exact ⟨kind, route.symm⟩

theorem routeStages_iff : m.routeStages = true ↔ ∀ n, m.routePasses n = true →
    (∃ t : StageId, t.val + 1 = m.routeStageRaw n ∧ m.stageSet t ≠ 0) ∧
    (m.routeCheckoutRaw n = 0 ∨ ∃ d : LocalId, d.val + 1 = m.routeCheckoutRaw n ∧ m.detByte d 0 = 5 ∧
      m.detByte d 9 = n.val + 1) := by
  rw [routeStages, allFin_iff]
  refine forall_congr' fun n => ?_
  rw [Bool.or_eq_true, Bool.not_eq_true', ← Bool.not_eq_true, ← Decidable.imp_iff_not_or, Bool.and_eq_true, checkoutOk_iff]
  refine imp_congr_right fun _ => and_congr_left fun _ => ?_
  cases number : numbered 12 (m.routeStageRaw n) with
  | none =>
    refine ⟨nofun, fun ⟨t, eq, _⟩ => ?_⟩
    rw [numbered_eq_some.mpr eq] at number
    cases number
  | some t =>
    have eq := numbered_eq_some.mp number
    refine bne_iff_ne.trans ⟨fun some_ => ⟨t, eq, some_⟩, fun ⟨u, other, some_⟩ => ?_⟩
    obtain rfl : u = t := Fin.ext (by omega)
    exact some_

theorem signSources_iff : m.signSources = true ↔ ∀ (j : SignId) (g : GroupId), 1 ≤ byteAt m.signs (2 * j.val) →
    byteAt m.signs (2 * j.val) ≤ 3 → g.val + 1 = byteAt m.signs (2 * j.val + 1) → m.isUsed g = true := by
  rw [signSources, allFin_iff]
  refine forall_congr' fun j => ?_
  rw [signSource_eq]
  generalize byteAt m.signs (2 * j.val) = source
  generalize byteAt m.signs (2 * j.val + 1) = arg
  rcases Nat.lt_or_ge 6 source with beyond | known
  · repeat rw [if_neg (by omega)]
    exact ⟨fun _ _ _ h => by omega, fun _ => rfl⟩
  · rcases (by omega : source = 0 ∨ source = 1 ∨ source = 2 ∨ source = 3 ∨ source = 4 ∨ source = 5 ∨ source = 6) with rfl | rfl | rfl | rfl | rfl | rfl | rfl
    · simp
    -- sources 4 to 6 name no group, and the three before them do
    rotate_left 3
    · cases numbered 8 arg <;> simp
    · simp
    · simp
    all_goals
      cases number : numbered 16 arg with
      | none =>
        exact ⟨fun _ g _ _ eq => absurd (number.symm.trans (numbered_eq_some.mpr eq)) nofun, fun _ => rfl⟩
      | some g =>
        refine ⟨fun used h _ _ eq => ?_, fun used => used g (by omega) (by omega) (numbered_eq_some.mp number)⟩
        obtain rfl : g = h := Option.some.inj (number.symm.trans (numbered_eq_some.mpr eq))
        exact used

end Image

end Sys2Proof.Machine
end

section
/-! PROOFS. The plan that a checked image gives (R63, R186 to R191). -/

namespace Sys2Proof.Machine

namespace Image

variable (m : Image)

theorem valueRange_of_checked {m : Image} (checked : m.contentCode = none) : m.valueRange = true :=
  (m.contentCode_none checked).1

/-- With every content check passed, none of them is the first that fails (R190). -/
theorem routeStages_of_checked {m : Image} (checked : m.contentCode = none) : m.routeStages = true := by
  rw [contentCode_eq, Option.map_eq_none_iff, List.findIdx?_eq_none_iff] at checked
  simpa using checked m.routeStages (by simp)

/-! ### Groups (R60, R186) -/

theorem groupPlan_nth (g : GroupId) : m.plan.groups.nth g = m.groupPlan g := Table.nth_tab _ g

theorem aspect_eq (g : GroupId) : (match m.aspectRaw g with
      | 0 => FlashAspect.amber
      | 1 => .red
      | _ => .dark) =
    if m.aspectRaw g = 0 then .amber else if m.aspectRaw g = 1 then .red else .dark := by
  split <;> simp_all

theorem groupPlan_vehicle {g : GroupId} (kind : m.kindRaw g = 0) : m.groupPlan g =
    { kind := .vehicle
      aspect := if m.aspectRaw g = 0 then .amber else if m.aspectRaw g = 1 then .red else .dark
      tPRE := m.tPRE g, tMIN := m.tMIN g, tMAX := m.tMAX g, tGAP := m.tGAP g
      tCLR := m.tCLR g, recallFlag := m.recallFlag g } := by
  rw [← aspect_eq]
  exact if_pos ((m.isVehicle_iff g).mpr kind)

theorem groupPlan_walk {g : GroupId} (kind : m.kindRaw g = 1) : m.groupPlan g =
    { kind := .walk
      aspect := if m.aspectRaw g = 0 then .amber else if m.aspectRaw g = 1 then .red else .dark
      tPRE := m.tPRE g, tMIN := m.tMIN g, tMAX := 0, tGAP := 0, tCLR := m.tCLR g, recallFlag := m.recallFlag g } := by
  rw [← aspect_eq]
  refine (if_neg ?_).trans (if_pos ((m.isWalk_iff g).mpr kind))
  rw [isVehicle_iff, kind]
  nofun

theorem groupPlan_unused {g : GroupId} (kind : m.kindRaw g = 2) : m.groupPlan g =
    { kind := .unused, aspect := .amber, tPRE := 0, tMIN := 0, tMAX := 0, tGAP := 0, tCLR := 0
      recallFlag := m.recallFlag g } := by
  refine (if_neg ?_).trans (if_neg ?_)
  · rw [isVehicle_iff, kind]
    nofun
  · rw [isWalk_iff, kind]
    nofun

/-! ### Routes (R129, R187) -/

theorem routes_nth (n : RouteId) : m.plan.routes.nth n = m.routeDef n := Table.nth_tab _ n

theorem routeDef_passing {n : RouteId} (passes : m.routePasses n = true) : m.routeDef n =
    { stage := numbered 12 (m.routeStageRaw n), checkout := numbered 24 (m.routeCheckoutRaw n) } := if_pos passes

theorem routeDef_other {n : RouteId} (other : m.routePasses n = false) :
    m.routeDef n = { stage := none, checkout := none } := if_neg (by rw [other]; nofun)

/-! ### Local and remote detectors (R109, R123) -/

theorem local_nth (d : LocalId) : m.plan.local_.nth d = m.localDef d := Table.nth_tab _ d

theorem remote_nth (r : RemoteId) : m.plan.remote.nth r = m.remoteDef r := Table.nth_tab _ r

theorem localDef_some {d : LocalId} {kind : DetKind} (known : m.detKind d = some kind) : m.localDef d = some
    { mode := m.detMode d kind, tDF := m.detByte d 1, locking := m.detByte d 2 != 0, calls := m.detCalls d
      extends_ := m.detExtends d, tMP := m.detByte d 7, tMSL := m.detByte d 8 } := by
  rw [localDef, known]
  rfl

theorem localDef_none {d : LocalId} (unknown : m.detKind d = none) : m.localDef d = none := by
  rw [localDef, unknown]
  rfl

/-- The mode of a detector's definition by its kind byte (R109). -/
theorem detMode_of_byte {d : LocalId} (values : m.detByte d 0 ≤ 5 ∧
    (m.detByte d 0 = 4 ∨ m.detByte d 0 = 5 → 1 ≤ m.detByte d 9 ∧ m.detByte d 9 ≤ 8) ∧
    (m.detByte d 0 = 4 → m.detByte d 10 ≤ 1)) (used : m.detByte d 0 ≠ 0) :
    ∃ kind, m.detKind d = some kind ∧
      (m.detByte d 0 = 1 → m.detMode d kind = .presence) ∧ (m.detByte d 0 = 2 → m.detMode d kind = .pulse) ∧
      (m.detByte d 0 = 3 → m.detMode d kind = .button) ∧
      (m.detByte d 0 = 4 → ∃ n : RouteId, n.val + 1 = m.detByte d 9 ∧
        m.detMode d kind = .claim n (if m.detByte d 10 = 0 then .emergency else .transit)) ∧
      (m.detByte d 0 = 5 → ∃ n : RouteId, n.val + 1 = m.detByte d 9 ∧ m.detMode d kind = .checkout n) := by
  obtain ⟨known, routes, _⟩ := values
  have claim (n : RouteId) (eq : n.val + 1 = m.detByte d 9) : m.detMode d .claim =
      .claim n (if m.detByte d 10 = 0 then .emergency else .transit) := by
    simp only [detMode, m.detRoute_eq_some.mpr eq, Option.getD_some]
  have checkout (n : RouteId) (eq : n.val + 1 = m.detByte d 9) : m.detMode d .checkout = .checkout n := by
    simp only [detMode, m.detRoute_eq_some.mpr eq, Option.getD_some]
  rw [detKind_eq]
  generalize m.detByte d 0 = byte at known routes used
  rcases (by omega : byte = 0 ∨ byte = 1 ∨ byte = 2 ∨ byte = 3 ∨ byte = 4 ∨ byte = 5) with
    rfl | rfl | rfl | rfl | rfl | rfl
  · exact absurd rfl used
  · exact ⟨.presence, rfl, fun _ => rfl, nofun, nofun, nofun, nofun⟩
  · exact ⟨.pulse, rfl, nofun, fun _ => rfl, nofun, nofun, nofun⟩
  · exact ⟨.button, rfl, nofun, nofun, fun _ => rfl, nofun, nofun⟩
  · obtain ⟨n, eq⟩ := exists_numbered.mp (routes (.inl rfl))
    exact ⟨.claim, rfl, nofun, nofun, nofun, fun _ => ⟨n, eq, claim n eq⟩, nofun⟩
  · obtain ⟨n, eq⟩ := exists_numbered.mp (routes (.inr rfl))
    exact ⟨.checkout, rfl, nofun, nofun, nofun, nofun, fun _ => ⟨n, eq, checkout n eq⟩⟩

theorem remoteDef_used {r : RemoteId} (used : m.remoteSource r ≠ 255) : m.remoteDef r = some
    { station := Fin.ofNat 16 (m.remoteSource r), input := (m.remoteInput r).getD 0
      calls := m.remoteCalls r, extends_ := m.remoteExtends r } := if_pos ((m.remoteUsed_iff r).mpr used)

theorem remoteDef_unused {r : RemoteId} (unused : m.remoteSource r = 255) : m.remoteDef r = none :=
  if_neg fun used => (m.remoteUsed_iff r).mp used unused

theorem ofNat_sixteen {n : Nat} (small : n ≤ 15) : (Fin.ofNat 16 n).val = n := Nat.mod_eq_of_lt (by omega)

/-! ### Signs (R152) -/

theorem signs_nth {j : SignId} {source : SignSource} (eq : m.signSource j = some source) :
    m.plan.signs.nth j = source := by
  refine (Table.nth_tab _ j).trans ?_
  rw [eq]
  rfl

/-- The source of a sign by its kind byte (R152). -/
theorem signs_of_byte {j : SignId} (values : byteAt m.signs (2 * j.val) ≤ 6 ∧
    (1 ≤ byteAt m.signs (2 * j.val) → byteAt m.signs (2 * j.val) ≤ 3 →
      1 ≤ byteAt m.signs (2 * j.val + 1) ∧ byteAt m.signs (2 * j.val + 1) ≤ 16) ∧
    (byteAt m.signs (2 * j.val) = 4 →
      1 ≤ byteAt m.signs (2 * j.val + 1) ∧ byteAt m.signs (2 * j.val + 1) ≤ 8))
    {source arg : Nat} (first : source = byteAt m.signs (2 * j.val)) (second : arg = byteAt m.signs (2 * j.val + 1)) :
    (source = 0 → m.plan.signs.nth j = .none) ∧
    (source = 1 → ∃ g : GroupId, g.val + 1 = arg ∧ m.plan.signs.nth j = .groupGreen g) ∧
    (source = 2 → ∃ g : GroupId, g.val + 1 = arg ∧ m.plan.signs.nth j = .groupNotRed g) ∧
    (source = 3 → ∃ g : GroupId, g.val + 1 = arg ∧ m.plan.signs.nth j = .callWaiting g) ∧
    (source = 4 → ∃ n : RouteId, n.val + 1 = arg ∧ m.plan.signs.nth j = .claimServing n) ∧
    (source = 5 → m.plan.signs.nth j = .claimServingAny) ∧ (source = 6 → m.plan.signs.nth j = .flashing) := by
  have eq := m.signSource_eq j
  obtain ⟨_, groups, routes⟩ := values
  rw [← first, ← second] at eq groups routes
  refine ⟨?_, ?_, ?_, ?_, ?_, ?_, ?_⟩ <;> rintro rfl
  case refine_2 | refine_3 | refine_4 =>
    obtain ⟨g, number⟩ := exists_numbered.mp (groups (by omega) (by omega))
    exact ⟨g, number, m.signs_nth (eq.trans (congrArg (Option.map _) (numbered_eq_some.mpr number)))⟩
  case refine_5 =>
    obtain ⟨n, number⟩ := exists_numbered.mp (routes rfl)
    exact ⟨n, number, m.signs_nth (eq.trans (congrArg (Option.map _) (numbered_eq_some.mpr number)))⟩
  all_goals exact m.signs_nth eq

theorem conflicts_nth (g : GroupId) : m.plan.conflicts.nth g = m.conflictRow g := Table.nth_tab _ g

end Image

/-- Settles O55: the fields and checks by their lemmas, then the plan of an image that passes, part by part. -/
theorem checkedPlansAreSymmetric : Obligations.CheckedPlansAreSymmetric := by
  refine ⟨fun l i => ⟨rfl, rfl, setAt_has l i⟩, fun m i n k g h t => ?fields,
    fun m d r i => ⟨rfl, rfl, rfl, rfl, rfl, rfl⟩,
    fun m => ⟨m.sequenceList_numbers, fun main rest => m.heldStages_cons, m.largestIG_law.1, m.largestIG_law.2,
      m.largestCLR_law.1, m.largestCLR_law.2⟩,
    Image.contentCode_eq,
    fun m => ⟨m.valueRange_iff, m.timerRange_iff, m.walkGroups_iff, m.conflictMatrix_iff, m.clearanceTable_iff,
      m.stageContent_iff, m.sequenceOk_iff, m.allRedLong_iff, m.releasePoint_iff, m.forceOffOrder_iff, m.cycleLong_iff,
      m.detectorLists_iff, m.claimRoutes_iff, m.remoteOthers_iff, m.routeStages_iff, m.signSources_iff⟩,
    fun m checked => ?plan⟩
  case fields =>
    exact ⟨rfl, rfl, rfl, rfl, rfl, rfl, rfl, rfl, rfl, rfl, rfl, rfl, rfl, rfl, rfl, rfl, rfl, rfl, rfl, rfl, rfl, rfl,
      rfl, rfl, rfl, rfl, rfl, m.routePasses_iff n, m.isUsed_iff g⟩
  case plan =>
    obtain ⟨station, patterns, _, _, detectors, remotes, _, signs⟩ :=
      m.valueRange_iff.mp (Image.valueRange_of_checked checked)
    have routes := m.routeStages_iff.mp (Image.routeStages_of_checked checked)
    have matrix := m.conflictMatrix_iff.mp (m.contentCode_none checked).2
    refine ⟨⟨Image.ofNat_sixteen station, rfl, rfl, rfl, rfl, rfl, rfl, rfl, rfl, fun t => Table.nth_tab _ t⟩,
      fun n => ⟨Table.nth_tab _ n, fun k => ?dist, fun other => ?other, fun passes => ?passes⟩,
      fun i => ⟨Table.nth_tab _ i, ?ofs, ?pREL, fun t => ?pFO⟩,
      fun g => ⟨m.conflicts_nth g, fun h => ?clearance, fun a eq => ?group⟩, fun d => ⟨fun unused => ?noDetector, fun used => ?detector⟩,
      fun r => ⟨fun unused => ?noRemote, fun used => ?remote⟩, fun j source arg => m.signs_of_byte (signs j), fun a b conflict => ?symmetric, fun i => ?cycle⟩
    case dist => simp only [Image.plan, Table.nth_tab]
    case other => rw [m.routes_nth, m.routeDef_other other]
    case passes =>
      obtain ⟨⟨t, number, _⟩, _⟩ := routes n passes
      rw [m.routes_nth, m.routeDef_passing passes]
      exact ⟨t, numbered_eq_some.mpr number, number, fun none => numbered_eq_none.mpr (by omega),
        fun d number => numbered_eq_some.mpr number⟩
    case ofs => simp only [Image.plan, Table.nth_tab, Image.patternDef]
    case pREL => simp only [Image.plan, Table.nth_tab, Image.patternDef]
    case pFO => simp only [Image.plan, Table.nth_tab, Image.patternDef, List.contains_iff_mem]
    case clearance => simp only [Image.plan, Table.nth_tab]
    case group =>
      subst eq
      rw [m.groupPlan_nth]
      exact ⟨m.groupPlan_vehicle, m.groupPlan_walk, m.groupPlan_unused⟩
    case noDetector =>
      rw [m.local_nth]
      refine m.localDef_none ?_
      rw [m.detKind_eq, unused]
      rfl
    case detector =>
      obtain ⟨kind, known, modes⟩ := m.detMode_of_byte (detectors d) used
      exact ⟨_, (m.local_nth d).trans (m.localDef_some known), rfl, rfl, rfl, rfl, rfl, rfl, modes⟩
    case noRemote => rw [m.remote_nth, m.remoteDef_unused unused]
    case remote =>
      obtain ⟨source, low, high⟩ := remotes r used
      obtain ⟨i, number⟩ := exists_numbered.mp ⟨low, high⟩
      refine ⟨_, (m.remote_nth r).trans (m.remoteDef_used used), Image.ofNat_sixteen source, ?_, rfl, rfl⟩
      rw [show m.remoteInput r = some i from numbered_eq_some.mpr number]
      exact number
    case symmetric =>
      rw [m.conflicts_nth] at conflict ⊢
      obtain ⟨back, other, _⟩ := matrix a b conflict
      exact ⟨back, other⟩
    case cycle =>
      rw [show m.plan.cycleLength.nth i = m.cycle i from Table.nth_tab _ i]
      exact (patterns i).1

end Sys2Proof.Machine
end

section
/-! PROOFS. The diagnostic port: its receiver, its replies and its transmit pin (R195, R196, R198). -/

namespace Sys2Proof.Machine

/-! ### Numbers in characters (R196) -/

theorem numChars_eq (n : Nat) : numChars n = [BitVec.ofNat 8 n, BitVec.ofNat 8 (n / 256)] := by
  have low : (BitVec.ofNat 16 n).extractLsb' 0 8 = BitVec.ofNat 8 n := by
    apply BitVec.eq_of_toNat_eq
    rw [BitVec.extractLsb'_toNat, BitVec.toNat_ofNat, BitVec.toNat_ofNat, Nat.shiftRight_zero]
    omega
  have high : (BitVec.ofNat 16 n).extractLsb' 8 8 = BitVec.ofNat 8 (n / 256) := by
    apply BitVec.eq_of_toNat_eq
    rw [BitVec.extractLsb'_toNat, BitVec.toNat_ofNat, BitVec.toNat_ofNat, Nat.shiftRight_eq_div_pow]
    omega
  show [(BitVec.ofNat 16 n).extractLsb' 0 8, (BitVec.ofNat 16 n).extractLsb' 8 8] = _
  rw [low, high]

theorem replyOf_eq (code : Byte) (body : List Byte) : ∃ sum, replyOf code body =
      [126, code, BitVec.ofNat 8 body.length, BitVec.ofNat 8 (body.length / 256)] ++ body ++ [sum] ∧
    sum.toNat = (((replyOf code body).dropLast.map BitVec.toNat).sum) % 256 := by
  refine ⟨sumChar ([126, code] ++ numChars body.length ++ body), ?_, ?_⟩
  · show [126, code] ++ numChars body.length ++ body ++ [_] = _
    rw [numChars_eq]
    rfl
  · show _ = ((([126, code] ++ numChars body.length ++ body ++ [_]).dropLast.map BitVec.toNat).sum) % 256
    rw [List.dropLast_concat, sumChar, foldl_sum]
    exact congrArg (· % 256) (Nat.zero_add _)

/-! ### The receiver (R195, R198) -/

/-- The levels of a character on the line: its start bit, its data bits, its stop bit. -/
theorem lineLevels_bit (char : Byte) (i : Nat) : (lineLevels char).getLsbD i =
    if i < 1 then false else if i - 1 < 8 then char.getLsbD (i - 1) else decide (i = 9) := by
  unfold lineLevels
  rw [BitVec.getLsbD_append, BitVec.getLsbD_append]
  split
  · exact BitVec.getLsbD_zero
  · split
    · rfl
    · rw [BitVec.getLsbD_one, Bool.eq_iff_iff]
      simp only [Bool.and_eq_true, decide_eq_true_eq]
      omega

theorem receivePin_bit (char : Byte) {i : Nat} (sent : i < 10) :
    receivePin char (some i) = (lineLevels char).getLsbD i := if_pos sent

theorem receivePin_rest (char : Byte) {i : Nat} (after : 10 ≤ i) : receivePin char (some i) = true :=
  if_neg (Nat.not_lt.mpr after)

/-- A row of the table that takes one letter, with the report that the letter picks (R195, R197). -/
theorem exec_query {s : State} {query : Instr} {letter : Byte} {body : List Byte} {levels : BitVec 10}
    (row : exec query s = .next (s.receiveRow (· == .char letter) levels))
    (picks : s.reportOf letter = (letter, body)) :
    (levels.getLsbD 0 = false → levels.getLsbD 9 = true → levels.extractLsb' 1 8 = letter →
      s.ctrl.mode ≠ .dark → s.diag = none →
      exec query s = .next { s with diag := some { chars := replyOf letter body, elapsed := 0 } }) ∧
    (levels.getLsbD 0 = true ∨ levels.getLsbD 9 = false ∨ levels.extractLsb' 1 8 ≠ letter ∨
      s.ctrl.mode = .dark ∨ s.diag ≠ none → exec query s = .next s) := by
  rw [row]
  refine ⟨fun start stop char live idle => congrArg Host.Outcome.next ?_,
    fun nothing => congrArg Host.Outcome.next (s.receiveRow_nothing _ levels ?_)⟩
  · rw [s.receiveRow_taken (· == .char letter) levels letter start stop char (beq_self_eq_true _) live idle, picks]
  · have other : levels.extractLsb' 1 8 ≠ letter →
        (RxChar.char (levels.extractLsb' 1 8) == RxChar.char letter) = false := fun differs =>
      beq_eq_false_iff_ne.mpr fun same => differs (RxChar.char.inj same)
    exact nothing.imp id (Or.imp id (Or.imp other id))

theorem RxChar.isOther_eq_true {char : Byte} (other : char ∉ ([83, 71, 68, 80, 67, 70, 78] : List Byte)) :
    (RxChar.char char).isOther = true := by
  show (!queryChars.contains char) = true
  rw [Bool.not_eq_true', ← Bool.not_eq_true, List.contains_iff_mem]
  exact other

theorem RxChar.isOther_eq_false {char : Byte} (query : char ∈ ([83, 71, 68, 80, 67, 70, 78] : List Byte)) :
    (RxChar.char char).isOther = false := by
  show (!queryChars.contains char) = false
  rw [Bool.not_eq_false', List.contains_iff_mem]
  exact query

/-- Any value but the seven is answered with itself (R195). -/
theorem State.reportOf_other (s : State) {char : Byte} (other : char ∉ ([83, 71, 68, 80, 67, 70, 78] : List Byte)) :
    s.reportOf char = (69, [char]) := by
  simp only [List.mem_cons, List.not_mem_nil, or_false, not_or] at other
  obtain ⟨s_, g, d, p, c, f, n⟩ := other
  unfold State.reportOf
  rw [if_neg s_, if_neg g, if_neg d, if_neg p, if_neg c, if_neg f, if_neg n]

theorem State.receiveRow_framing (s : State) (levels : BitVec 10) :
    s.receiveRow (· == .framingError) levels = s := by
  unfold State.receiveRow
  split
  · rename_i framing
    exact s.receive_nothing levels (.inr (.inl (eq_of_beq framing)))
  · rfl

theorem State.receiveRow_busy (s : State) (levels : BitVec 10) :
    s.receiveRow (fun _ => s.diag.isSome) levels = s := by
  unfold State.receiveRow
  split
  · rename_i busy
    refine s.receive_nothing levels (.inr (.inr ?_))
    rw [State.portIdle, Option.isNone_eq_false_iff.mpr busy, Bool.and_false]
  · rfl

/-! ### The reply's end and the transmit pin -/

theorem State.replyOver_some {s : State} {r : Reply} (busy : s.diag = some r) :
    s.replyOver = decide (625000 * r.chars.length / 19296 ≤ r.elapsed) := by
  rw [State.replyOver, busy]
  rfl

theorem State.replyOver_none {s : State} (idle : s.diag = none) : s.replyOver = false := by
  rw [State.replyOver, idle]
  rfl

theorem State.diagPin_idle {s : State} (idle : s.diag = none) (n : Option Nat) : s.diagPin n = true := by
  cases n with
  | none => rfl
  | some i =>
    unfold State.diagPin State.diagBits
    rw [idle]
    rfl

/-- Settles O56: the seven rows by one lemma, the error reply, the levels, the reply's frame and end, the pin. -/
theorem queriesAreAnswered : Obligations.QueriesAreAnswered := by
  refine ⟨fun s q letter body row levels => ?queries, fun s levels char eq => ⟨?error, ?noError⟩,
    fun s levels => ⟨congrArg Host.Outcome.next (s.receiveRow_framing levels),
      congrArg Host.Outcome.next (s.receiveRow_busy levels)⟩,
    fun levels i low => ?data, fun char => ⟨rfl, ?start, fun j low => ?bit, ?stop, fun n => receivePin_rest char,
      fun n sent => (receivePin_bit char sent).symm⟩,
    replyOf_eq, fun s r busy elapsed => ?ends, fun s early => ?early, fun s => ⟨rfl, fun idle n => State.diagPin_idle idle n⟩,
    fun s r i b busy char => ?pin⟩
  case queries =>
    rcases row with ⟨rfl, rfl, rfl⟩ | ⟨rfl, rfl, rfl⟩ | ⟨rfl, rfl, rfl⟩ | ⟨rfl, rfl, rfl⟩ | ⟨rfl, rfl, rfl⟩ |
        ⟨rfl, rfl, rfl⟩ | ⟨rfl, rfl, rfl⟩
    all_goals exact exec_query rfl rfl
  case error =>
    intro start stop other live idle
    have taken := s.receiveRow_taken RxChar.isOther levels char start stop eq.symm (RxChar.isOther_eq_true other) live idle
    rw [s.reportOf_other other] at taken
    exact congrArg Host.Outcome.next taken
  case noError =>
    subst eq
    intro nothing
    exact congrArg Host.Outcome.next (s.receiveRow_nothing RxChar.isOther levels
      (nothing.imp id (Or.imp id (Or.imp RxChar.isOther_eq_false id))))
  case data =>
    rw [BitVec.getLsbD_extractLsb', decide_eq_true low, Bool.true_and, Nat.add_comm]
  case start => rw [receivePin_bit char (by omega), lineLevels_bit, if_pos (by omega)]
  case bit =>
    rw [receivePin_bit char (by omega), lineLevels_bit, if_neg (by omega), if_pos (by omega), Nat.add_sub_cancel_left]
  case stop =>
    rw [receivePin_bit char (by omega), lineLevels_bit, if_neg (by omega), if_neg (by omega)]
    rfl
  case ends =>
    refine congrArg Host.Outcome.next (if_pos ?_)
    rw [State.replyOver_some busy, decide_eq_true elapsed]
  case early =>
    refine congrArg Host.Outcome.next (if_neg ?_)
    cases busy : s.diag with
    | none => rw [State.replyOver_none busy]; nofun
    | some r => rw [State.replyOver_some busy, decide_eq_true_eq, Nat.not_le]; exact early r busy
  case pin =>
    obtain ⟨start, data, stop⟩ := charBits_bits b true
    refine ⟨?_, fun j low => ?_, ?_⟩
    · exact (s.diagPin_bit r i 0 b busy char (by omega)).trans start
    · rw [Nat.add_assoc, s.diagPin_bit r i (1 + j) b busy char (by omega)]
      exact data j low
    · exact (s.diagPin_bit r i 9 b busy char (by omega)).trans stop

end Sys2Proof.Machine
end

section
/-! PROOFS. The bodies of the seven reports (R38, R56, R81, R107, R127, R149, R167, R181, R196, R197). -/

namespace Sys2Proof.Machine

/-! ### Lengths -/

theorem numChars_length (n : Nat) : (numChars n).length = 2 := rfl

theorem State.remoteChars_length (s : State) (r : RemoteId) : (s.remoteChars r).length = 2 := by
  unfold State.remoteChars
  split <;> rfl

theorem timerChars_length (t : Option Nat) : (timerChars t).length = 2 := by
  cases t <;> rfl

theorem ClaimEntry.body_length (e : ClaimEntry) : e.body.length = 14 := by
  unfold ClaimEntry.body
  simp only [List.length_append, List.length_cons, List.length_nil, numChars_length, timerChars_length]

theorem conflictChars_length (c : Option ConflictCause) : (conflictChars c).length = 3 := by
  match c with
  | none => rfl
  | some (.conflict _ _) => rfl
  | some (.greenInFlash _) => rfl

theorem State.groupsBody_length (s : State) : s.groupsBody.length = 48 :=
  flatMap_length _ _ 3 fun _ => rfl

theorem State.detectorsBody_length (s : State) : s.detectorsBody.length = 160 := by
  unfold State.detectorsBody
  rw [List.length_append, List.length_append, flatMap_length _ _ 2 fun _ => rfl, flatMap_length _ _ 2 s.remoteChars_length,
    flatMap_length _ _ 5 fun _ => rfl, List.length_finRange, List.length_finRange]

theorem State.claimsBody_length (s : State) :
    s.claimsBody.length = 4 + 14 * s.claims.table.length + 7 * s.claims.own.length := by
  unfold State.claimsBody
  simp only [List.length_append, List.length_cons, List.length_nil, flatMap_length _ _ 14 ClaimEntry.body_length,
    flatMap_length _ _ 7 fun o : OwnClaim => show o.body.length = 7 from rfl]
  omega

theorem State.faultsBody_length (s : State) : s.faultsBody.length = 176 := by
  unfold State.faultsBody
  simp only [List.length_append, List.length_cons, List.length_nil, conflictChars_length,
    flatMap_length _ _ 3 fun c : ChanId => show (s.lamps.channels.nth c).body.length = 3 from rfl, List.length_finRange]

theorem State.countsBody_length (s : State) : s.countsBody.length = 108 := by
  unfold State.countsBody
  simp only [List.length_append,
    flatMap_length _ _ 4 fun d : LocalId =>
      show (halfBytes (s.dets.nth d).count ++ halfBytes (s.dets.nth d).capture).length = 4 from rfl, List.length_finRange]
  rfl

/-! ### The code characters -/

theorem Mode.code_char (m : Mode) : numChar m.code = match m with
    | .dark | .loading => 0
    | .check => 1
    | .startFlash => 2
    | .allRed => 3
    | .running => 4
    | .panelFlash => 5
    | .faultFlash => 6 := by
  cases m <;> rfl

theorem StepState.code_char (st : StepState) : numChar st.code = match st with
    | .isolated => 0
    | .seeking => 1
    | .inStep => 2 := by
  cases st <;> rfl

theorem LineState.code_char (st : LineState) : numChar st.code = match st with
    | .off => 0
    | .listen => 1
    | .active => 2
    | .silentFault => 3
    | .stuck => 4 := by
  cases st <;> rfl

theorem SilentKind.code_char (k : SilentKind) : numChar k.code = match k with
    | .none => 0
    | .timed => 1
    | .permanent => 2 := by
  cases k <;> rfl

theorem stageCode_char (t : Option StageId) : numChar (stageCode t) = match t with
    | none => 0
    | some t => numChar (t.val + 1) := by
  cases t <;> rfl

theorem GState.code_char (st : GState) : numChar st.code = match st with
    | .red => 0
    | .prepare => 1
    | .green => 2
    | .clearing => 3
    | .flashing => 4
    | .dark => 5 := by
  cases st <;> rfl

theorem Presence.code_char (p : Presence) : numChar p.code = match p with
    | .absent => 0
    | .heard => 1
    | .present => 2
    | .lost => 3
    | .foreign => 4
    | .unfit => 5
    | .self => 6 := by
  cases p <;> rfl

theorem Priority.code_char (q : Priority) : numChar q.code = match q with
    | .emergency => 0
    | .transit => 1 := by
  cases q <;> rfl

theorem ClaimState.code_char (st : ClaimState) : numChar st.code = match st with
    | .waiting => 0
    | .ready => 1
    | .serving => 2
    | .cleared => 3
    | .expired => 4 := by
  cases st <;> rfl

theorem Command.code_char (c : Command) : numChar c.code = match c with
    | .on => 0
    | .off => 1
    | .flash => 2 := by
  cases c <;> rfl

theorem SelfCheck.code_char (c : SelfCheck) : numChar c.code = match c with
    | .notRun => 0
    | .running => 1
    | .passed => 2
    | .failed => 3 := by
  cases c <;> rfl

theorem flagsChar_four (a b c d : Bool) :
    flagsChar [a, b, c, d] = BitVec.ofNat 8 (a.toNat + 2 * b.toNat + 4 * c.toNat + 8 * d.toNat) := by
  unfold flagsChar numChar
  congr 1
  simp only [List.foldr_cons, List.foldr_nil]
  omega

theorem timerChars_eq (t : Option Nat) : timerChars t = match t with
    | none => [255, 255]
    | some n => numChars (downTime n) := by
  cases t <;> rfl

/-! ### Groups and detectors (R81, R127) -/

theorem State.reportedState_unused {s : State} {g : GroupId} (unused : (s.groupPlan g).kind = .unused) :
    s.reportedState g = .dark := if_neg fun used => (s.used_iff g).mp used unused

theorem State.reportedState_used {s : State} {g : GroupId} (used : (s.groupPlan g).kind ≠ .unused) :
    s.reportedState g = (s.groups.nth g).state := if_pos ((s.used_iff g).mpr used)

theorem State.groupRemaining_eq (s : State) (g : GroupId) : s.groupRemaining g =
    if (s.groupPlan g).kind = .unused then 0 else
      match (s.groups.nth g).state with
      | .prepare => downTime (6250 * (s.groupPlan g).tPRE - (s.groups.nth g).time)
      | .green =>
        if (s.groups.nth g).minDone then
          if (s.groups.nth g).maxRunning then downTime (s.groups.nth g).maxLeft else 0
        else downTime (6250 * (s.groupPlan g).tMIN - (s.groups.nth g).time)
      | .clearing => downTime (6250 * (s.groupPlan g).tCLR - (s.groups.nth g).time)
      | .red | .flashing | .dark => 0 := by
  unfold State.groupRemaining
  dsimp only
  by_cases unused : (s.groupPlan g).kind = .unused
  · rw [State.reportedState_unused unused, if_pos unused]
  · rw [State.reportedState_used unused, if_neg unused]
    cases (s.groups.nth g).state <;> rfl

theorem State.reportedState_char (s : State) (g : GroupId) : numChar (s.reportedState g).code =
    if (s.groupPlan g).kind = .unused then (5 : Byte) else
      match (s.groups.nth g).state with
      | .red => 0
      | .prepare => 1
      | .green => 2
      | .clearing => 3
      | .flashing => 4
      | .dark => 5 := by
  by_cases unused : (s.groupPlan g).kind = .unused
  · rw [State.reportedState_unused unused, if_pos unused]
    rfl
  · rw [State.reportedState_used unused, if_neg unused, GState.code_char]

theorem State.detectorCode_char (s : State) (d : LocalId) : numChar (s.detectorCode d) =
    if s.localDef d = none then (0 : Byte) else
      match (s.dets.nth d).fault with
      | .normal => 1
      | .stuck => 2
      | .silent => 3 := by
  unfold State.detectorCode
  by_cases none_ : s.localDef d = none
  · rw [if_pos (Option.isNone_iff_eq_none.mpr none_), if_pos none_]
    rfl
  · rw [if_neg (mt Option.isNone_iff_eq_none.mp none_), if_neg none_]
    cases (s.dets.nth d).fault <;> rfl

/-! ### Claims and channels (R149, R167) -/

theorem ClaimEntry.body_eq (e : ClaimEntry) : e.body =
    [numChar e.origin.val, numChar e.serial.val, numChar (e.route.val + 1),
      match e.priority with
      | .emergency => 0
      | .transit => 1,
     numChar (e.stage.val + 1),
      match e.state with
      | .waiting => 0
      | .ready => 1
      | .serving => 2
      | .cleared => 3
      | .expired => 4] ++
    numChars (downTime e.remaining) ++ [flagChar e.arrived] ++ numChars (downTime e.life) ++
    (match e.hold with
      | none => [255, 255]
      | some n => numChars (downTime n)) ++ [numChar e.miss] := by
  rw [ClaimEntry.body, Priority.code_char, ClaimState.code_char, timerChars_eq]

theorem OwnClaim.body_eq (o : OwnClaim) : o.body =
    [numChar o.serial.val, numChar (o.route.val + 1),
      match o.priority with
      | .emergency => 0
      | .transit => 1] ++
    numChars (downTime o.life) ++ [o.clearedBy.extractLsb' 0 8, o.clearedBy.extractLsb' 8 8] := by
  rw [OwnClaim.body, Priority.code_char] <;> rfl

theorem Chan.body_eq (c : Chan) : c.body =
    [match c.command with
      | .on => 0
      | .off => 1
      | .flash => 2,
     flagChar c.sensed, flagsChar [c.unLive, c.loLive, c.unSticky, c.loSticky]] := by
  rw [Chan.body, Command.code_char]

theorem conflictChars_eq (c : Option ConflictCause) : conflictChars c = match c with
    | none => ([0, 0, 0] : List Byte)
    | some (.conflict a b) => [1, numChar (a.val + 1), numChar (b.val + 1)]
    | some (.greenInFlash g) => [2, numChar (g.val + 1), 0] := by
  match c with
  | none => rfl
  | some (.conflict _ _) => rfl
  | some (.greenInFlash _) => rfl

/-- Settles O57: the lengths, the coding, and each body with its codes in characters. -/
theorem reportLengths : Obligations.ReportLengths := by
  refine ⟨fun s => ⟨rfl, s.groupsBody_length, s.detectorsBody_length, flatMap_length _ _ 3 fun _ => rfl,
      s.claimsBody_length, s.faultsBody_length, s.countsBody_length⟩,
    fun n => ⟨numChars_eq n, rfl⟩, fun ticks => rfl, flagsChar_four, fun s => ?station, fun s => ?groups,
    fun s => ?detectors, fun s => ?peers, fun s => ?claims, fun s => ?faults, fun s => rfl⟩
  case station =>
    unfold State.stationBody
    rw [Mode.code_char, StepState.code_char, stageCode_char, stageCode_char, LineState.code_char, SilentKind.code_char]
    cases s.ctrl.firstFault with
    | none => rfl
    | some r => cases r <;> rfl
  case groups =>
    unfold State.groupsBody
    congr 1
    funext g
    rw [State.reportedState_char, State.groupRemaining_eq] <;> rfl
  case detectors =>
    unfold State.detectorsBody
    congr 2
    · congr 1
      funext d
      rw [State.detectorCode_char] <;> rfl
  case peers =>
    unfold State.peersBody
    congr 1
    funext k
    dsimp only
    rw [Presence.code_char] <;> rfl
  case claims =>
    have entries := congrArg (List.flatMap · s.claims.table) (funext ClaimEntry.body_eq)
    have owns := congrArg (List.flatMap · s.claims.own) (funext OwnClaim.body_eq)
    unfold State.claimsBody
    rw [entries, owns, stageCode_char]
    simp only [List.append_assoc, List.cons_append, List.nil_append] <;> rfl
  case faults =>
    have channels := congrArg (List.flatMap · (List.finRange 56))
      (funext fun c : ChanId => Chan.body_eq (s.lamps.channels.nth c))
    unfold State.faultsBody
    rw [channels, conflictChars_eq, SelfCheck.code_char]
    cases s.lamps.redOut <;> rfl

end Sys2Proof.Machine
end
